-- ==== Sys2Proof/Word.lean ====
section
/-! DEFINITION. The word types of the host bus (00_scope.md R10: words are 32 bits wide; 10_state.md R48: `bus_addr` is 8 bits wide). -/

namespace Sys2Proof

/-- A bus word, 32 bits (R10, R67). -/
abbrev Word := BitVec 32

/-- A byte address of the host register space, 8 bits (R60). -/
abbrev Addr := BitVec 8

end Sys2Proof
end

