-- ==== Sys2Proof/Syntax.lean ====
section
/-! DEFINITION. The six commands of spec/opcode_table.json as syntax (30_encoding.md R83). A field is the unsigned integer
that R81 extracts from the command word; the operands in `arg0` to `arg2` are state, not syntax (R88). -/

namespace Sys2Proof

/-- A command (R83). `ch` is the CH field, `md` the MD field, `id` the ID field, each as the unsigned number R81 reads
(log entry 14). A
reserved opcode is no command: the decoder refuses it by name (log entry 12). -/
inductive Instr where
  /-- OP 0x1: start or restart a waveform on channel `ch` in mode `md` (R120). -/
  | startWave (ch md : Nat)
  /-- OP 0x2: stop the waveform on channel `ch`, or on all channels when `ch` is 0 (R130). -/
  | stopWave (ch : Nat)
  /-- OP 0x3: set channel `ch`'s output directly in mode `md` (R154). -/
  | setManual (ch md : Nat)
  /-- OP 0x4: enter register mode with identifier `id` (R160). -/
  | enterReg (id : Nat)
  /-- OP 0x5: leave register mode (R165). -/
  | exitReg
  /-- OP 0x6: latch the status snapshot (R190). -/
  | queryStatus
  deriving DecidableEq, Repr

end Sys2Proof
end

