-- ==== Sys2Proof/WellFormed.lean ====
section
/-! DEFINITION. Which instruction terms an encoding can carry: every field within the width 30_encoding.md R80 gives it.
Whether a command ACCEPTS its field values (channel 4, mode 2, identifier 248) is no matter of form: the command itself
rejects them with a result code (R85 to R87). -/

namespace Sys2Proof

/-- The CH field is 4 bits wide (R80, R85). -/
def chanFieldFits (ch : Nat) : Bool := decide (ch < 16)

/-- The MD field is 2 bits wide (R80, R86). -/
def modeFieldFits (md : Nat) : Bool := decide (md < 4)

/-- The ID field is 8 bits wide (R80, R87). -/
def idFieldFits (id : Nat) : Bool := decide (id < 256)

/-- Every field of the instruction fits its place in the command word. -/
def Instr.wellFormed : Instr → Bool
  | .startWave ch md => chanFieldFits ch && modeFieldFits md
  | .stopWave ch => chanFieldFits ch
  | .setManual ch md => chanFieldFits ch && modeFieldFits md
  | .enterReg id => idFieldFits id
  | .exitReg => true
  | .queryStatus => true

end Sys2Proof
end

