-- ==== Sys2Proof/Decode.lean ====
section
/-! DEFINITION. The decoder and the encoder of the 32-bit command word (30_encoding.md R80 to R92). The decoder is total:
it gives one of the six commands or refuses a reserved opcode by name. -/

namespace Sys2Proof

/-- Why a command word is no command: its opcode is reserved (R90). What writing such a word does is `executeCommand`'s
matter: `reject(INVALID_OPCODE)`. -/
inductive DecodeError where
  | reservedOpcode (op : Nat)
  deriving DecidableEq, Repr

/-- `w[lo + len - 1 : lo]` as an unsigned integer (R10, R81). -/
def field (w : Word) (lo len : Nat) : Nat := w.toNat / 2 ^ lo % 2 ^ len

/-- `OP = w[3:0]` (R80). -/
def opField (w : Word) : Nat := field w 0 4

/-- `CH = w[7:4]` (R80). -/
def chField (w : Word) : Nat := field w 4 4

/-- `MD = w[9:8]` (R80). -/
def mdField (w : Word) : Nat := field w 8 2

/-- `ID = w[23:16]` (R80). -/
def idField (w : Word) : Nat := field w 16 8

/-- The command a word stands for (R82, R83). Bits a command does not use are ignored (R89). -/
def decode (w : Word) : Except DecodeError Instr :=
  match opField w with
  | 1 => .ok (.startWave (chField w) (mdField w))
  | 2 => .ok (.stopWave (chField w))
  | 3 => .ok (.setManual (chField w) (mdField w))
  | 4 => .ok (.enterReg (idField w))
  | 5 => .ok .exitReg
  | 6 => .ok .queryStatus
  | op => .error (.reservedOpcode op)

/-- The opcode of a command (R83). -/
def Instr.opcode : Instr → Nat
  | .startWave _ _ => 1
  | .stopWave _ => 2
  | .setManual _ _ => 3
  | .enterReg _ => 4
  | .exitReg => 5
  | .queryStatus => 6

/-- The command word with the given fields and zeros in the reserved bits (R80; `CMD op, ch, md, id` of R93). -/
def cmdWord (op ch md id : Nat) : Word :=
  BitVec.ofNat 32 (op + ch * 2 ^ 4 + md * 2 ^ 8 + id * 2 ^ 16)

/-- The word of a well-formed command, reserved and unused bits zero (R89: software writes them as 0). -/
def encode (i : Instr) : Word :=
  match i with
  | .startWave ch md => cmdWord i.opcode ch md 0
  | .stopWave ch => cmdWord i.opcode ch 0 0
  | .setManual ch md => cmdWord i.opcode ch md 0
  | .enterReg id => cmdWord i.opcode 0 0 id
  | .exitReg => cmdWord i.opcode 0 0 0
  | .queryStatus => cmdWord i.opcode 0 0 0

/-- The word whose low `nbits` bits are those of `w` and whose other bits are 0. -/
def tableWord (nbits w : Nat) : Word := BitVec.ofNat 32 (w % 2 ^ nbits)

/-- What the decoder reads from an opcode-table word of `nbits` bits, the bits above them zero. One command is one
32-bit word (R92), so the table's numbering is the word's own. -/
def decodeTableWord (nbits w : Nat) : Option Instr :=
  match decode (tableWord nbits w) with
  | .ok i => some i
  | .error _ => none

end Sys2Proof
end

