-- ==== Sys2Proof/Config.lean ====
section
/-! DEFINITION. The implementation parameters of 00_scope.md R8, the identification word of 10_state.md R27, and the
values the spec leaves open. A parameter has the value R8 gives it; an open value is an opaque constant with no body, so
that no proof can see what it is. -/

namespace Sys2Proof.Config

/-- `N_CH`, the number of output channels (R8, source). -/
abbrev nCh : Nat := 3

/-- `V_MAX`, the voltage full scale in mV (R8, source). -/
abbrev vMax : Nat := 10000

/-- `I_MAX`, the current full scale in uA (R8, source). -/
abbrev iMax : Nat := 25000

/-- `PERIOD_MIN` in ms (R8, source). -/
abbrev periodMin : Nat := 1000

/-- `PERIOD_MAX` in ms (R8, source). -/
abbrev periodMax : Nat := 60000

/-- `UPDATE_INTERVAL` in ticks (R8, source). -/
abbrev updateInterval : Nat := 250

/-- `ID_MIN`, the smallest register-mode identifier (R8, source). -/
abbrev idMin : Nat := 1

/-- `ID_MAX`, the largest register-mode identifier (R8, source). -/
abbrev idMax : Nat := 247

/-- `ANGLE_BITS` (R8, decided D9): one cycle has 2^10 = 1024 angle steps. -/
abbrev angleBits : Nat := 10

/-- `LUT_SIZE`, the entries of the quarter-wave table (R8, decided D10). -/
abbrev lutSize : Nat := 257

/-- `LUT_FRAC`, the fraction bits of a table entry: 2^15 stands for 1.0 (R8, decided D10). -/
abbrev lutFrac : Nat := 15

/-- `TICK`, the milliseconds of one `ms_tick` pulse (R8, source; D3). -/
abbrev tick : Nat := 1

/-- `ELAPSED_BITS`, the width of the elapsed counter (R8, decided D15). -/
abbrev elapsedBits : Nat := 32

/-- `ID_VALUE`, the identification word: the bytes "SIM" and version 1 (R27). -/
def idValue : Word := 0x53494D01#32

/-- `F_CLK` in Hz, an OPEN parameter (R8, decided D2). The platform keeps it at 1000 or more (R50); no rule depends on it
(log entry 8). -/
opaque fClk : Nat

/-- `WAB_BASE`, where a host's address map puts the 256-byte register space: an OPEN parameter (R76; log entry 8). -/
opaque wabBase : Nat

/-- The free values of `bus_rdata` (93_implementation_defined.md U2, U3; R71): the n-th draw. Nothing constrains them
(log entry 4). -/
opaque freeRdata : Nat → Word

/-- The angle of a channel whose phase is not below its period, as a function of both. R103 states an angle only under
`phase[c] < period[c]`; no run from reset leaves that range (R45 (d)); log entry 6. -/
opaque freeAngle : BitVec 16 → BitVec 16 → BitVec angleBits

/-- The progress of a channel whose phase is not below its period, as a function of both (R191 states it only within the
period); log entry 6. -/
opaque freeProgress : BitVec 16 → BitVec 16 → BitVec 16

end Sys2Proof.Config
end

