-- ==== Sys2Proof/Machine/State.lean ====
section
/-! DEFINITION. The state of the block (10_state.md), the events a step emits (R43), the port inputs of a clock cycle (R48),
the reasons a step can stop, and the state after reset (R49, R240, R241). The block has no data memory (20_memory.md R60):
its address space is a view of these registers, read and written in Machine/Bus.lean (log entry 11). -/

namespace Sys2Proof.Machine

/-- A channel, numbered 1 to 3 at the interface (R8 `N_CH`, R16). -/
inductive ChanId where
  | c1
  | c2
  | c3
  deriving DecidableEq, Repr

/-- The global control mode `gmode` (R24). -/
inductive GMode where
  | analog
  | register
  deriving DecidableEq, Repr, Inhabited

/-- The output multiplexer select `owner[c]` (R31): the source that owns the channel's outputs. -/
inductive Owner where
  | none
  | manual
  | wave
  | reg
  deriving DecidableEq, Repr, Inhabited

/-- A channel's output mode `mode[c]` (R33): voltage or current. -/
inductive Mode where
  | v
  | c
  deriving DecidableEq, Repr, Inhabited

/-- A sink of a channel (R13): voltage `out_v` or current `out_i`. -/
inductive SinkKind where
  | v
  | i
  deriving DecidableEq, Repr

/-- A position the relay can be commanded to (R34): both paths off, voltage path, current path. -/
inductive RelayPos where
  | off
  | rv
  | rc
  deriving DecidableEq, Repr

/-- The result codes 0 to 9 (60_exceptions.md R210). -/
inductive ResultCode where
  | ok
  | rangeWarning
  | invalidChannel
  | invalidMode
  | invalidPeriod
  | invalidAmplitude
  | wrongGlobalMode
  | invalidIdentifier
  | valueOutOfRange
  | invalidOpcode
  deriving DecidableEq, Repr

/-- An event a step emits (R43). -/
inductive Event where
  /-- Value `v` was written to sink `k` of channel `c`. -/
  | sinkWrite (c : ChanId) (k : SinkKind) (v : BitVec 16)
  /-- The relay of channel `c` was commanded to position `p`. -/
  | relaySet (c : ChanId) (p : RelayPos)
  /-- The Reporter was sent `code`. -/
  | notice (code : ResultCode)
  deriving DecidableEq, Repr

/-- The snapshot registers of a channel (R42). -/
structure Snapshot where
  /-- `snap_flags`: bit 0 active, bit 1 mode. -/
  flags : BitVec 2
  amp : BitVec 32
  period : BitVec 32
  center : BitVec 32
  elapsed : BitVec Config.elapsedBits
  progress : BitVec 16
  manual : BitVec 16
  deriving DecidableEq, Repr, Inhabited

/-- The register file of one channel (R30 to R42). -/
structure Channel where
  owner : Owner
  mode : Mode
  /-- `relay[c]`, the 2-bit register: 0 OFF, 1 RV, 2 RC, 3 never written (R34). -/
  relay : BitVec 2
  amp : BitVec 31
  period : BitVec 16
  /-- `center[c]`, a two's-complement pattern (R37). -/
  center : BitVec 32
  phase : BitVec 16
  /-- `elapsed[c]`, `ELAPSED_BITS` wide (R39, R8). -/
  elapsed : BitVec Config.elapsedBits
  outV : BitVec 16
  outI : BitVec 16
  manual : BitVec 16
  snap : Snapshot
  deriving DecidableEq, Repr, Inhabited

/-- The input ports in one clock cycle (R48). -/
structure CycleIn where
  rst : Bool
  /-- `ms_tick` -/
  tick : Bool
  /-- `bus_we` -/
  we : Bool
  /-- `bus_re` -/
  re : Bool
  /-- `bus_addr` -/
  addr : Addr
  /-- `bus_wdata` -/
  wdata : Word
  deriving DecidableEq, Repr

/-- The machine. The registers of the block (R20), then the model's own fields: the outputs of the last step (`events`,
`rdata`), the counter of free values drawn (`draws`), the inputs of the coming cycles (`inputs`), and whether the block has seen
a reset edge since power-up (`wasReset`); log entries 1, 3, 4, 22. -/
structure State where
  gmode : GMode
  /-- `reg_id` (R28) -/
  regId : BitVec 8
  /-- `upd_cnt` (R29) -/
  updCnt : BitVec 8
  /-- The 4-bit code of the last command (R25). -/
  result : BitVec 4
  arg0 : Word
  arg1 : Word
  arg2 : Word
  ch1 : Channel
  ch2 : Channel
  ch3 : Channel
  /-- The ordered events of the last step (R43). -/
  events : List Event
  /-- The `bus_rdata` port in the last cycle (R48). -/
  rdata : Word
  /-- How many free values of `bus_rdata` were drawn. -/
  draws : Nat
  /-- The port inputs of the coming cycles, the next cycle first. An empty list: cycles in which no input port is high. -/
  inputs : List CycleIn
  /-- A reset edge has come since power-up; until then every register and port is unspecified (R242). -/
  wasReset : Bool
  deriving DecidableEq, Repr, Inhabited

/-- The reasons a step can stop with a fault: none, because no condition is fatal and no event traps (R214, R216). No
meaning raises a fault, which is safe: the spec gives every command word and every bus access an effect. -/
inductive Fault where
  deriving DecidableEq, Repr

/-- The reasons the model can have no meaning for an instruction. -/
inductive Refusal where
  /-- Raised by an arm of `exec` that has no meaning yet (none is left in this model). Safe: the model stops where the
  hardware goes on. -/
  | notModelled (mnemonic : String)
  deriving DecidableEq, Repr

/-- Every snapshot register at its reset value 0 (R42, R49). -/
def Snapshot.reset : Snapshot :=
  { flags := 0, amp := 0, period := 0, center := 0, elapsed := 0, progress := 0, manual := 0 }

/-- Every register of a channel at its reset value (R49): owner NONE, mode V, relay OFF, the rest 0. -/
def Channel.reset : Channel :=
  { owner := .none, mode := .v, relay := 0, amp := 0, period := 0, center := 0, phase := 0, elapsed := 0, outV := 0,
    outI := 0, manual := 0, snap := Snapshot.reset }

/-- The machine right after a reset step (R49, R240): its events are the zero writes and relay-off events of R241, in that
order. `rdata` (a free value), `draws` and `inputs` are the model's own (log entries 1, 2, 4). -/
def State.reset : State :=
  { gmode := .analog, regId := 0, updCnt := 0, result := 0, arg0 := 0, arg1 := 0, arg2 := 0,
    ch1 := Channel.reset, ch2 := Channel.reset, ch3 := Channel.reset,
    events :=
      [.sinkWrite .c1 .v 0, .sinkWrite .c1 .i 0, .sinkWrite .c2 .v 0, .sinkWrite .c2 .i 0, .sinkWrite .c3 .v 0,
        .sinkWrite .c3 .i 0, .relaySet .c1 .off, .relaySet .c2 .off, .relaySet .c3 .off],
    rdata := Config.freeRdata 0, draws := 1, inputs := [], wasReset := true }

end Sys2Proof.Machine

namespace Sys2Proof.Config

open Sys2Proof.Machine

/-- The free values of every register, of `bus_rdata` and of the event list before the first reset edge, by draw: any value
each (70_reset_and_hazards.md R242, 93_implementation_defined.md U1). Nothing constrains them (log entry 22). -/
opaque unspecified : Nat → State

end Sys2Proof.Config

namespace Sys2Proof.Machine

/-- The machine at power-up, with the port inputs of the coming cycles (R242): no reset edge has come, and every register and
port has any value. -/
def State.powerUp (inputs : List CycleIn) : State :=
  { Config.unspecified 0 with draws := 1, inputs := inputs, wasReset := false }

end Sys2Proof.Machine
end

