-- ==== Sys2Proof/Machine/Flags.lean ====
section
/-! DEFINITION. The encodings of the small registers and every flag the block computes (10_state.md R23, R24, R31 to R34;
60_exceptions.md R210): the active bits, the first-listed result codes and the range warning. -/

namespace Sys2Proof.Machine

/-- `gmode` as its register bit (R24): ANALOG = 0, REGISTER = 1. -/
def GMode.code : GMode → BitVec 1
  | .analog => 0
  | .register => 1

/-- `owner[c]` as its register bits (R31). -/
def Owner.code : Owner → BitVec 2
  | .none => 0
  | .manual => 1
  | .wave => 2
  | .reg => 3

/-- `mode[c]` as its register bit (R33): V = 0, C = 1. -/
def Mode.code : Mode → BitVec 1
  | .v => 0
  | .c => 1

/-- A relay position as the bits of `relay[c]` (R34). -/
def RelayPos.code : RelayPos → BitVec 2
  | .off => 0
  | .rv => 1
  | .rc => 2

/-- A result code as the bits of `result` and `notice_code` (R210). -/
def ResultCode.code : ResultCode → BitVec 4
  | .ok => 0
  | .rangeWarning => 1
  | .invalidChannel => 2
  | .invalidMode => 3
  | .invalidPeriod => 4
  | .invalidAmplitude => 5
  | .wrongGlobalMode => 6
  | .invalidIdentifier => 7
  | .valueOutOfRange => 8
  | .invalidOpcode => 9

/-- `active[c]`, not stored: the channel's owner is WAVE (R32). -/
def Channel.active (ch : Channel) : Bool := decide (ch.owner = .wave)

/-- `active[c]` as one bit (R64, R190). -/
def Channel.activeBit (ch : Channel) : BitVec 1 := BitVec.ofBool ch.active

/-- The range warning of START_WAVE (R122), computed in ℤ: the ideal peak passes full scale `fullScale`, or the ideal trough
goes below zero. -/
def rangeWarning (fullScale amplitude center : Int) : Bool :=
  decide (center + amplitude > fullScale) || decide (center - amplitude < 0)

end Sys2Proof.Machine
end

