-- ==== Sys2Proof/Machine/Operands.lean ====
section
/-! DEFINITION. The operands of the commands: the fields that name a channel or a mode (30_encoding.md R85 to R87), the
operand registers read as numbers (R88), the mode constants (00_scope.md R14) and the number operators (R11). -/

namespace Sys2Proof.Machine

/-- `s32(w)`: the word as a two's-complement signed number (R11). -/
def s32 (w : Word) : Int := w.toInt

/-- `u32(w)`: the word as an unsigned number (R11). -/
def u32 (w : Word) : Nat := w.toNat

/-- `clamp(x, lo, hi) = min(max(x, lo), hi)` (R11). -/
def clamp (x lo hi : Int) : Int := min (max x lo) hi

/-- `a >>> k = floor(a / 2^k)`, the arithmetic shift right in ℤ (R11). `Int` division by a positive number rounds toward
minus infinity. -/
def asr (a : Int) (k : Nat) : Int := a / 2 ^ k

/-- The `N_CH` channels, in channel order (R8, R16). -/
def ChanId.all : List ChanId := [.c1, .c2, .c3]

/-- The channel a field names: 1 to `N_CH` name channels, nothing else does (R85, R16). -/
def chanOfField (n : Nat) : Option ChanId :=
  if n = 0 ∨ Config.nCh < n then none else ChanId.all[n - 1]?

/-- The number the interface gives a channel (R16, R85). -/
def ChanId.number : ChanId → Nat
  | .c1 => 1
  | .c2 => 2
  | .c3 => 3

/-- The `MD` field's number of a mode (R86). -/
def Mode.number : Mode → Nat
  | .v => 0
  | .c => 1

/-- The mode an `MD` field names: 0 is V, 1 is C, 2 and 3 name none (R86). -/
def modeOfField (n : Nat) : Option Mode :=
  match n with
  | 0 => some .v
  | 1 => some .c
  | _ => none

/-- ENTER_REG accepts identifiers `ID_MIN` to `ID_MAX` (R87). -/
def identifierOk (id : Nat) : Bool := decide (Config.idMin ≤ id) && decide (id ≤ Config.idMax)

/-- `MAX(md)` (R14). -/
def maxOf : Mode → Int
  | .v => Config.vMax
  | .c => Config.iMax

/-- `SINK(md)` (R14). -/
def sinkOf : Mode → SinkKind
  | .v => .v
  | .c => .i

/-- `PATH(md)` (R14). -/
def pathOf : Mode → RelayPos
  | .v => .rv
  | .c => .rc

/-- A time in ms as ticks of `TICK` ms (R8, R9). -/
def ticksOf (ms : Nat) : Nat := ms / Config.tick

/-- START_WAVE's amplitude operand, `s32(arg0)` (R88). -/
def amplitudeOperand (s : State) : Int := s32 s.arg0

/-- START_WAVE's period operand in ms, `u32(arg1)` (R88). -/
def periodOperand (s : State) : Nat := u32 s.arg1

/-- START_WAVE's center operand, `s32(arg2)` (R88). -/
def centerOperand (s : State) : Int := s32 s.arg2

/-- SET_MANUAL's value operand, `s32(arg0)` (R88). -/
def valueOperand (s : State) : Int := s32 s.arg0

/-- START_WAVE accepts periods `PERIOD_MIN` to `PERIOD_MAX`, both inclusive (R88, R121). -/
def periodOk (p : Nat) : Bool := decide (Config.periodMin ≤ p) && decide (p ≤ Config.periodMax)

/-- SET_MANUAL accepts values 0 to `MAX(md)`, both inclusive (R88, R155). -/
def valueOk (m : Mode) (v : Int) : Bool := decide (0 ≤ v) && decide (v ≤ maxOf m)

end Sys2Proof.Machine
end

