-- ==== Sys2Proof/Machine/Ops.lean ====
section
/-! DEFINITION. The named operations over the state: access to a channel's registers (00_scope.md R12), the events (R13,
10_state.md R43), accepting and rejecting a command (R13, 60_exceptions.md R211, R213), the shared stop and zeroing
primitives, reset, and the beginning of a clock cycle.

The block has no exceptions and no return from one (R215 to R217). What stands in for taking an exception is `reject`: the
one operation every rejected command ends in. -/

namespace Sys2Proof.Machine

/-- `name[c]`: the registers of channel `c` (R12). -/
def State.chan (s : State) (c : ChanId) : Channel :=
  match c with
  | .c1 => s.ch1
  | .c2 => s.ch2
  | .c3 => s.ch3

/-- Change the registers of channel `c` by `f`, those of no other channel (R12, R30). -/
def State.modChan (s : State) (c : ChanId) (f : Channel → Channel) : State :=
  match c with
  | .c1 => { s with ch1 := f s.ch1 }
  | .c2 => { s with ch2 := f s.ch2 }
  | .c3 => { s with ch3 := f s.ch3 }

/-- Change the registers of every channel by `f`: a loop over 1, 2, 3 that emits nothing. -/
def State.mapChans (s : State) (f : Channel → Channel) : State :=
  { s with ch1 := f s.ch1, ch2 := f s.ch2, ch3 := f s.ch3 }

/-- `for c in 1, 2, 3: f(c)`, in channel order. -/
def forChans (f : ChanId → State → State) (s : State) : State := f .c3 (f .c2 (f .c1 s))

/-- Set the register behind one sink of a channel (R40). -/
def Channel.setSink (k : SinkKind) (v : BitVec 16) (ch : Channel) : Channel :=
  match k with
  | .v => { ch with outV := v }
  | .i => { ch with outI := v }

/-- Append an event to the step's list (R13). -/
def emit (e : Event) (s : State) : State := { s with events := s.events ++ [e] }

/-- `emit SinkWrite(c, k, v)`: set the sink and append the event (R13, R43). -/
def emitSink (c : ChanId) (k : SinkKind) (v : BitVec 16) (s : State) : State :=
  emit (.sinkWrite c k v) (s.modChan c (Channel.setSink k v))

/-- `emit RelaySet(c, p)`: set the relay and append the event (R13, R43). -/
def emitRelay (c : ChanId) (p : RelayPos) (s : State) : State :=
  emit (.relaySet c p) (s.modChan c fun ch => { ch with relay := p.code })

/-- `reject(code)`: write `result`, emit the notice, change nothing else (R13, R211). -/
def reject (code : ResultCode) (s : State) : State :=
  emit (.notice code) { s with result := code.code }

/-- `accept(code)`: write `result`, and emit the notice unless the code is OK (R13, R213). -/
def accept (code : ResultCode) (s : State) : State :=
  if code = .ok then { s with result := code.code } else emit (.notice code) { s with result := code.code }

/-- `stop_one(c)`, shared by STOP_WAVE, SET_MANUAL and ENTER_REG (R131): an active channel loses its owner and its sink is
zeroed at once; a channel that is not active is left alone. -/
def stopOne (c : ChanId) (s : State) : State :=
  if (s.chan c).active then
    emitSink c (sinkOf (s.chan c).mode) 0 (s.modChan c fun ch => { ch with owner := .none })
  else s

/-- The two zero writes of one channel, V before I (R161). -/
def zeroChan (c : ChanId) (s : State) : State := emitSink c .i 0 (emitSink c .v 0 s)

/-- The zeroing shared by ENTER_REG and reset, in their order (R161, R241): six zero writes, then three relay-off events. -/
def safeOutputs (s : State) : State := forChans (fun c => emitRelay c .off) (forChans zeroChan s)

/-- The reset step (R240, R241): every register takes its reset value, and the safe state is written to the outputs. The
cycle's other inputs are ignored. The model's own fields of the cycle are kept: the inputs still to come, the free value on
`bus_rdata`, the count of draws, and the step's event list so far. -/
def resetCycle (s : State) : State :=
  safeOutputs { State.reset with events := s.events, rdata := s.rdata, draws := s.draws, inputs := s.inputs }

/-- A cycle of a block that no reset edge has reached yet (R242): whatever its inputs are, every register and port has any value
after it. The model's own fields of the cycle are kept: the inputs still to come and the count of draws (log entry 22). -/
def unspecifiedCycle (s : State) : State :=
  { Config.unspecified s.draws with draws := s.draws, inputs := s.inputs, wasReset := false }

/-- A cycle in which no input port is high. -/
def CycleIn.idle : CycleIn := { rst := false, tick := false, we := false, re := false, addr := 0, wdata := 0 }

/-- The port inputs of the next clock cycle. -/
def State.nextInput (s : State) : CycleIn := s.inputs.headD CycleIn.idle

/-- The beginning of a clock cycle: its inputs are taken, its event list is empty (R43: each step produces its own list), and
`bus_rdata` carries no value the spec gives until a read puts one there (U2, U3): a free value (log entry 4). -/
def State.beginCycle (s : State) : State :=
  { s with events := [], rdata := Config.freeRdata s.draws, draws := s.draws + 1, inputs := s.inputs.tail }

end Sys2Proof.Machine
end

