-- ==== Sys2Proof/Machine/Arbiter.lean ====
section
/-! DEFINITION. SET_MANUAL, ENTER_REG and EXIT_REG: the manual path of the output multiplexer and the transitions of the
mode-arbitration FSM (41_output_arbiter.md R150 to R167). -/

namespace Sys2Proof.Machine

/-- The checks of SET_MANUAL in R212's order, all before any side effect (R155). -/
def checkSet (ch md : Nat) (s : State) : Except ResultCode (ChanId × Mode) :=
  if s.gmode ≠ .analog then .error .wrongGlobalMode
  else
    match chanOfField ch with
    | none => .error .invalidChannel
    | some c =>
      match modeOfField md with
      | none => .error .invalidMode
      | some m => if ¬ valueOk m (valueOperand s) then .error .valueOutOfRange else .ok (c, m)

/-- SET_MANUAL after its checks (R154): stop a running waveform, take the channel, select the path, drive the value. -/
def setChannel (c : ChanId) (m : Mode) (s : State) : State :=
  let v := BitVec.ofInt 16 (valueOperand s)
  let owned := (stopOne c s).modChan c fun ch => { ch with owner := .manual, mode := m }
  let driven := emitSink c (sinkOf m) v (emitRelay c (pathOf m) owned)
  accept .ok (driven.modChan c fun ch => { ch with manual := v })

/-- SET_MANUAL (R154). -/
def execSetManual (ch md : Nat) (s : State) : Host.Outcome State Fault Refusal :=
  match checkSet ch md s with
  | .error code => .next (reject code s)
  | .ok (c, m) => .next (setChannel c m s)

/-- ENTER_REG after its checks (R160): stop every waveform, zero every sink, open every relay, take every channel, record the
identifier, change the mode. -/
def enterRegister (id : Nat) (s : State) : State :=
  let safe := safeOutputs (forChans stopOne s)
  let owned := safe.mapChans fun ch => { ch with mode := .v, owner := .reg }
  accept .ok { owned with regId := BitVec.ofNat 8 id, gmode := .register }

/-- ENTER_REG (R160). -/
def execEnterReg (id : Nat) (s : State) : Host.Outcome State Fault Refusal :=
  if s.gmode ≠ .analog then .next (reject .wrongGlobalMode s)
  else if ¬ identifierOk id then .next (reject .invalidIdentifier s)
  else .next (enterRegister id s)

/-- EXIT_REG (R165): back to ANALOG, every channel unowned, no sink or relay written. -/
def execExitReg (s : State) : Host.Outcome State Fault Refusal :=
  if s.gmode ≠ .register then .next (reject .wrongGlobalMode s)
  else .next (accept .ok (State.mapChans { s with gmode := .analog } fun ch => { ch with owner := .none }))

end Sys2Proof.Machine
end

