-- ==== Sys2Proof/Machine/Dds.lean ====
section
/-! DEFINITION. The sine-wave DDS of one channel (40_waveform_engine.md R100 to R110) and the progress fraction of
42_status.md R191: exact integer arithmetic over the channel's own registers. -/

namespace Sys2Proof.Machine

/-- R103, R191 state their quotients under `phase[c] < period[c]`, which R45 (d) gives for an active channel. -/
def Channel.inPeriod (ch : Channel) : Bool := decide (ch.phase.toNat < ch.period.toNat)

/-- The phase after a tick (R101): one more, or 0 when that reaches the period. The sum is stored mod 2^16 (R11;
log entry 13). -/
def nextPhase (ch : Channel) : BitVec 16 :=
  if ch.phase.toNat + 1 = ch.period.toNat then 0 else ch.phase + 1

/-- What a tick does to one channel's counters (R101, R102, R112): an active channel's `elapsed` and `phase` advance, any
other channel keeps them. -/
def advance (ch : Channel) : Channel :=
  if ch.active then { ch with elapsed := ch.elapsed + 1, phase := nextPhase ch } else ch

/-- `angle(c) = floor(phase · 1024 / period)` (R103); outside the period a free value (log entry 6). -/
def angle (ch : Channel) : BitVec Config.angleBits :=
  if ch.inPeriod then BitVec.ofNat Config.angleBits (ch.phase.toNat * 2 ^ Config.angleBits / ch.period.toNat)
  else Config.freeAngle ch.phase ch.period

/-- `sinq(a)` by quarter-wave folding (R104): `q = a[9:8]`, `i = a[7:0]`; the odd quarters read the table backwards from its
last index, `LUT_SIZE - 1 = 256`. -/
def sinq (a : BitVec Config.angleBits) : Int :=
  let i := a.toNat % 256
  match a.toNat / 256 with
  | 0 => (lut i : Int)
  | 1 => (lut (Config.lutSize - 1 - i) : Int)
  | 2 => -(lut i : Int)
  | _ => -(lut (Config.lutSize - 1 - i) : Int)

/-- `prod(c) = amp[c] · sinq(angle(c))` (R107). -/
def prod (ch : Channel) : Int := (ch.amp.toNat : Int) * sinq (angle ch)

/-- `scaled(c) = prod(c) >>> 15`, rounding toward minus infinity (R107). -/
def scaled (ch : Channel) : Int := asr (prod ch) Config.lutFrac

/-- `raw(c) = center[c] + scaled(c)`, in ℤ (R107). -/
def raw (ch : Channel) : Int := s32 ch.center + scaled ch

/-- `sample(c) = clamp(raw(c), 0, MAX(mode[c]))` (R108). -/
def sampleValue (ch : Channel) : Int := clamp (raw ch) 0 (maxOf ch.mode)

/-- The sample as the 16-bit sink value it fits (R108). -/
def sample (ch : Channel) : BitVec 16 := BitVec.ofInt 16 (sampleValue ch)

/-- `progress(c) = floor(phase · 65536 / period)`, Q0.16 (R191); outside the period a free value (log entry 6). -/
def progress (ch : Channel) : BitVec 16 :=
  if ch.inPeriod then BitVec.ofNat 16 (ch.phase.toNat * 2 ^ 16 / ch.period.toNat)
  else Config.freeProgress ch.phase ch.period

/-- Write the sample of channel `c` to the sink of its mode (R110). -/
def writeSample (c : ChanId) (s : State) : State :=
  emitSink c (sinkOf (s.chan c).mode) (sample (s.chan c)) s

end Sys2Proof.Machine
end

