-- ==== Sys2Proof/Machine/Status.lean ====
section
/-! DEFINITION. QUERY_STATUS (42_status.md R190 to R193). -/

namespace Sys2Proof.Machine

/-- What QUERY_STATUS latches for one channel (R190): the waveform fields are 0 unless the channel is active. -/
def snapshotOf (ch : Channel) : Snapshot :=
  { flags := ch.activeBit.setWidth 2 ||| ch.mode.code.setWidth 2 <<< 1
    amp := if ch.active then ch.amp.setWidth 32 else 0
    period := if ch.active then ch.period.setWidth 32 else 0
    center := if ch.active then ch.center else 0
    elapsed := if ch.active then ch.elapsed else 0
    progress := if ch.active then progress ch else 0
    manual := ch.manual }

/-- QUERY_STATUS (R190): accepted in both modes, latches every channel in one step. -/
def execQueryStatus (s : State) : Host.Outcome State Fault Refusal :=
  .next (accept .ok (s.mapChans fun ch => { ch with snap := snapshotOf ch }))

end Sys2Proof.Machine
end

