-- ==== Sys2Proof/Machine/Waveform.lean ====
section
/-! DEFINITION. START_WAVE and STOP_WAVE (40_waveform_engine.md R120 to R132). -/

namespace Sys2Proof.Machine

/-- The checks of START_WAVE in R212's order: the code of the first that fails, or the channel and the mode. -/
def checkStart (ch md : Nat) (s : State) : Except ResultCode (ChanId × Mode) :=
  if s.gmode ≠ .analog then .error .wrongGlobalMode
  else
    match chanOfField ch with
    | none => .error .invalidChannel
    | some c =>
      match modeOfField md with
      | none => .error .invalidMode
      | some m =>
        if ¬ periodOk (periodOperand s) then .error .invalidPeriod
        else if amplitudeOperand s < 0 then .error .invalidAmplitude
        else .ok (c, m)

/-- The registers START_WAVE loads (R120): the owner, the mode, the parameters, the period in ticks (R9), and both counters at
0. -/
def loadWave (m : Mode) (a : Int) (p : Nat) (center : Int) (ch : Channel) : Channel :=
  { ch with
    owner := .wave, mode := m, amp := BitVec.ofInt 31 a, period := BitVec.ofNat 16 (ticksOf p),
    center := BitVec.ofInt 32 center, phase := 0, elapsed := 0 }

/-- The code of an accepted START_WAVE (R122): RANGE_WARNING or OK. -/
def startCode (m : Mode) (s : State) : ResultCode :=
  if rangeWarning (maxOf m) (amplitudeOperand s) (centerOperand s) then .rangeWarning else .ok

/-- START_WAVE after its checks (R120, R123): load the channel, select the path, write the phase-0 sample, accept. -/
def startChannel (c : ChanId) (m : Mode) (s : State) : State :=
  let loaded := s.modChan c (loadWave m (amplitudeOperand s) (periodOperand s) (centerOperand s))
  accept (startCode m s) (writeSample c (emitRelay c (pathOf m) loaded))

/-- START_WAVE (R120). -/
def execStartWave (ch md : Nat) (s : State) : Host.Outcome State Fault Refusal :=
  match checkStart ch md s with
  | .error code => .next (reject code s)
  | .ok (c, m) => .next (startChannel c m s)

/-- STOP_WAVE (R130): channel 0 stops every channel, 1 to 3 stop one, any other number is rejected. -/
def execStopWave (ch : Nat) (s : State) : Host.Outcome State Fault Refusal :=
  if s.gmode ≠ .analog then .next (reject .wrongGlobalMode s)
  else if ch = 0 then .next (accept .ok (forChans stopOne s))
  else
    match chanOfField ch with
    | none => .next (reject .invalidChannel s)
    | some c => .next (accept .ok (stopOne c s))

end Sys2Proof.Machine
end

