-- ==== Sys2Proof/Machine/Dispatch.lean ====
section
/-! DEFINITION. The dispatch of a decoded command to its meaning (30_encoding.md R82): exactly one arm runs. -/

namespace Sys2Proof.Machine

def exec (i : Instr) (s : State) : Host.Outcome State Fault Refusal :=
  match i with
  | .startWave ch md => Sys2Proof.Machine.execStartWave ch md s
  | .stopWave ch => Sys2Proof.Machine.execStopWave ch s
  | .setManual ch md => Sys2Proof.Machine.execSetManual ch md s
  | .enterReg id => Sys2Proof.Machine.execEnterReg id s
  | .exitReg => Sys2Proof.Machine.execExitReg s
  | .queryStatus => Sys2Proof.Machine.execQueryStatus s

end Sys2Proof.Machine
end

