-- ==== Sys2Proof/Machine/Tick.lean ====
section
/-! DEFINITION. TICK and the update event (40_waveform_engine.md R112 to R115). -/

namespace Sys2Proof.Machine

/-- The samples of an update event (R112, R114): in ANALOG, in channel order, each active channel's sample; in REGISTER
nothing. -/
def updateEvent (s : State) : State :=
  if s.gmode = .analog then
    forChans (fun c t => if (t.chan c).active then writeSample c t else t) s
  else s

/-- The update divider (R29, R112): it counts ticks, and on the 250th it returns to 0 and the update event runs. -/
def countTick (s : State) : State :=
  if s.updCnt.toNat = Config.updateInterval - 1 then updateEvent { s with updCnt := 0 }
  else { s with updCnt := s.updCnt + 1 }

/-- TICK (R112): the counters of the active channels advance, then the divider; an update event writes the samples of the new
phases. -/
def tick (s : State) : State := countTick (s.mapChans advance)

end Sys2Proof.Machine
end

