-- ==== Sys2Proof/Machine/Bus.lean ====
section
/-! DEFINITION. The host register space (20_memory.md R60 to R71): the register map and its field layouts, `reg_read`,
`reg_write`, the execution of a command word (30_encoding.md R82, R90), and one clock cycle of the block
(70_reset_and_hazards.md R240, R245; 00_scope.md R7). -/

namespace Sys2Proof.Machine

/-- The word slot an address reaches: `bus_addr[7:2]`; `bus_addr[1:0]` is ignored (R60, R68). -/
def slotOf (a : Addr) : Nat := a.toNat / 4

/-- `STATUS` (R64): RESULT [3:0], GMODE [8], ACT1 [12], ACT2 [13], ACT3 [14], REGID [23:16], every other bit 0. -/
def statusWord (s : State) : Word :=
  s.result.setWidth 32 ||| s.gmode.code.setWidth 32 <<< 8 ||| s.ch1.activeBit.setWidth 32 <<< 12 |||
    s.ch2.activeBit.setWidth 32 <<< 13 ||| s.ch3.activeBit.setWidth 32 <<< 14 ||| s.regId.setWidth 32 <<< 16

/-- `CH_STATE` (R64): OWNER [1:0], MODE [4], RELAY [9:8], ACTIVE [12], every other bit 0. -/
def chStateWord (ch : Channel) : Word :=
  ch.owner.code.setWidth 32 ||| ch.mode.code.setWidth 32 <<< 4 ||| ch.relay.setWidth 32 <<< 8 |||
    ch.activeBit.setWidth 32 <<< 12

/-- The global registers, by slot (R61); reserved slots read 0 (R62), and so does `CMD`. -/
def readGlobal (slot : Nat) (s : State) : Word :=
  match slot with
  | 0x1 => s.arg0
  | 0x2 => s.arg1
  | 0x3 => s.arg2
  | 0x4 => statusWord s
  | 0x5 => Config.idValue
  | _ => 0

/-- The registers of a channel, by slot within its block of 16 (R63); the reserved slot reads 0 (R62). -/
def readChannel (slot : Nat) (ch : Channel) : Word :=
  match slot with
  | 0x0 => chStateWord ch
  | 0x1 => ch.outV.setWidth 32
  | 0x2 => ch.outI.setWidth 32
  | 0x3 => ch.manual.setWidth 32
  | 0x4 => ch.amp.setWidth 32
  | 0x5 => ch.period.setWidth 32
  | 0x6 => ch.center
  | 0x7 => ch.phase.setWidth 32
  | 0x8 => ch.snap.flags.setWidth 32
  | 0x9 => ch.snap.amp
  | 0xA => ch.snap.period
  | 0xB => ch.snap.center
  | 0xC => ch.snap.elapsed
  | 0xD => ch.snap.progress.setWidth 32
  | 0xE => ch.snap.manual.setWidth 32
  | _ => 0

/-- `reg_read(a)` (R65): the word of the slot, and nothing else. Channel `c`'s block of 16 slots begins at slot `16·c`
(R63: byte offset `0x40·c`). -/
def regRead (a : Addr) (s : State) : Word :=
  match chanOfField (slotOf a / 16) with
  | none => readGlobal (slotOf a) s
  | some c => readChannel (slotOf a % 16) (s.chan c)

/-- `execute_command(w)` (R82): the command the word decodes to, or `reject(INVALID_OPCODE)` for a reserved opcode (R90). -/
def executeCommand (w : Word) (s : State) : Host.Outcome State Fault Refusal :=
  match decode w with
  | .ok i => exec i s
  | .error (.reservedOpcode _) => .next (reject .invalidOpcode s)

/-- `reg_write(a, w)` (R66): slot 0 runs a command, slots 1 to 3 are the operand registers, every other slot ignores the
write (R62). -/
def regWrite (a : Addr) (w : Word) (s : State) : Host.Outcome State Fault Refusal :=
  match slotOf a with
  | 0x0 => executeCommand w s
  | 0x1 => .next { s with arg0 := w }
  | 0x2 => .next { s with arg1 := w }
  | 0x3 => .next { s with arg2 := w }
  | _ => .next s

/-- A bus read drives `bus_rdata` with the slot's word as it stands at the beginning of the cycle (R65). With both strobes
high the read data is any value (R71, U2), and without a read it carries no meaning (U3): it keeps the cycle's free value. -/
def busRead (inp : CycleIn) (s : State) : State :=
  if inp.re && !inp.we then { s with rdata := regRead inp.addr s } else s

/-- The bus write of a cycle, taken as a normal write even when a read is asked for too (R71). -/
def busWrite (inp : CycleIn) (s : State) : Host.Outcome State Fault Refusal :=
  if inp.we then regWrite inp.addr inp.wdata s else .next s

/-- The tick of a cycle, after its bus write (R245). -/
def tickIf (inp : CycleIn) (s : State) : State := if inp.tick then tick s else s

/-- One clock cycle on the state at its beginning (R7): reset overrides everything else (R240, R218); before the first reset
nothing is specified (R242); else the read data is taken, then the bus write, then the tick on the state the write left (R71,
R245). -/
def cycle (inp : CycleIn) (s : State) : Host.Outcome State Fault Refusal :=
  if inp.rst then .next (resetCycle s)
  else if ¬ s.wasReset then .next (unspecifiedCycle s)
  else
    match busWrite inp (busRead inp s) with
    | .next t => .next (tickIf inp t)
    | .fault r => .fault r
    | .refused r => .refused r

/-- The inputs of a cycle with one bus write. -/
def CycleIn.write (a : Addr) (w : Word) : CycleIn := { CycleIn.idle with we := true, addr := a, wdata := w }

/-- The inputs of a cycle with one bus read. -/
def CycleIn.read (a : Addr) : CycleIn := { CycleIn.idle with re := true, addr := a }

/-- The inputs of a cycle with one tick. -/
def CycleIn.oneTick : CycleIn := { CycleIn.idle with tick := true }

/-- The inputs of a reset cycle. -/
def CycleIn.reset : CycleIn := { CycleIn.idle with rst := true }

end Sys2Proof.Machine
end

