-- ==== Sys2Proof/Machine/Step.lean ====
section
/-! DEFINITION. The step: one clock cycle on the inputs that stand next in State (00_scope.md R7; log entry 1). -/

namespace Sys2Proof.Machine

/-- One clock cycle: take the next port inputs and run the cycle on them. With no inputs left the cycle has no port high, and
no register changes. -/
def step (s : State) : Host.Outcome State Fault Refusal := cycle s.nextInput s.beginCycle

/-- The state with the next clock cycle being a bus write of a command word to `CMD` (R61), the word's bits above `nbits`
zero. The block fetches nothing (R22): the next command is whatever the host writes next (log entry 2). -/
def State.withFetchWord (s : State) (nbits w : Nat) : State :=
  { s with inputs := CycleIn.write 0 (tableWord nbits w) :: s.inputs }

end Sys2Proof.Machine
end

