-- ==== Sys2Proof/Machine/HostSyntax.lean ====
section
/-! DEFINITION. The host's statements (30_encoding.md R93, R94) as the port inputs they put on the coming clock cycles: one
bus access a cycle, `WAIT n` as n ticks with no bus access. -/

namespace Sys2Proof.Machine

/-- `<md>` of R93: `V`, `C`, or `#n` for a raw `MD` value. -/
inductive HostMode where
  | v
  | c
  | raw (n : Nat)
  deriving DecidableEq, Repr

/-- A host statement: the four statements of R93, then the pseudo-instructions of R94. Values are integers; a negative one
is written as its 32-bit two's-complement pattern. An operand too large for its place is taken modulo the width (log entry 19). -/
inductive HostStmt where
  | wr (off : Nat) (value : Int)
  | rd (off : Nat)
  | wait (n : Nat)
  | cmd (op ch : Nat) (md : HostMode) (id : Nat)
  | start (ch : Nat) (md : HostMode) (amp per ctr : Int)
  | stop (ch : Nat)
  | stopAll
  | set (ch : Nat) (md : HostMode) (value : Int)
  | enter (id : Nat)
  | exit
  | query
  deriving DecidableEq, Repr

/-- The number in the `MD` field. -/
def HostMode.number : HostMode → Nat
  | .v => Mode.v.number
  | .c => Mode.c.number
  | .raw n => n

/-- `WR <off>, <value>` (R93). -/
def wrCycle (off : Nat) (value : Int) : CycleIn := CycleIn.write (BitVec.ofNat 8 off) (BitVec.ofInt 32 value)

/-- `op | ch<<4 | md<<8 | id<<16` (R93). -/
def hostCmdWord (op ch md id : Nat) : Nat := op ||| ch <<< 4 ||| md <<< 8 ||| id <<< 16

/-- `CMD <op>, <ch>, <md>, <id>` (R93): a write to offset 0x00. -/
def cmdCycle (op ch md id : Nat) : CycleIn := wrCycle 0x00 (hostCmdWord op ch md id)

/-- The clock cycles of a statement (R93), with every pseudo-instruction expanded (R94). -/
def HostStmt.cycles : HostStmt → List CycleIn
  | .wr off value => [wrCycle off value]
  | .rd off => [CycleIn.read (BitVec.ofNat 8 off)]
  | .wait n => List.replicate n CycleIn.oneTick
  | .cmd op ch md id => [cmdCycle op ch md.number id]
  | .start ch md amp per ctr => [wrCycle 0x04 amp, wrCycle 0x08 per, wrCycle 0x0C ctr, cmdCycle 1 ch md.number 0]
  | .stop ch => [cmdCycle 2 ch 0 0]
  | .stopAll => [cmdCycle 2 0 0 0]
  | .set ch md value => [wrCycle 0x04 value, cmdCycle 3 ch md.number 0]
  | .enter id => [cmdCycle 4 0 0 id]
  | .exit => [cmdCycle 5 0 0 0]
  | .query => [cmdCycle 6 0 0 0]

/-- The clock cycles of a host program, statement after statement. -/
def hostCycles (p : List HostStmt) : List CycleIn := p.flatMap HostStmt.cycles

/-- The state with a host program's cycles standing before the inputs still to come (log entry 2). -/
def State.withProgram (s : State) (p : List HostStmt) : State := { s with inputs := hostCycles p ++ s.inputs }

end Sys2Proof.Machine
end

