-- ==== Sys2Proof/Machine/Ports.lean ====
section
/-! DEFINITION. The output ports of the block (10_state.md R44, R48), computed from the registers and the event list of the
last step; before the first reset each port has any value (70_reset_and_hazards.md R242). Log entries 17 and 22. `out_v[c]`,
`out_i[c]` and `bus_rdata` are the fields `outV`, `outI` and `rdata` themselves. -/

namespace Sys2Proof.Config

open Sys2Proof.Machine

/-- The free values of `we_v[c]` and `we_i[c]` before the first reset edge, by draw (R242; log entry 22). -/
opaque freeStrobe : Nat → ChanId → SinkKind → Bool

/-- The free values of `rly_v[c]` and `rly_c[c]` before the first reset edge, by draw (R242; log entry 22). -/
opaque freeRelayLine : Nat → ChanId → RelayPos → Bool

/-- The free values of `notice_valid` before the first reset edge, by draw (R242; log entry 22). -/
opaque freeNoticeValid : Nat → Bool

/-- The free values of `notice_code` before the first reset edge, by draw (R242; log entry 22). -/
opaque freeNoticeCode : Nat → BitVec 4

end Sys2Proof.Config

namespace Sys2Proof.Machine

/-- The event writes sink `k` of channel `c`. -/
def Event.writesSink (c : ChanId) (k : SinkKind) (e : Event) : Bool :=
  match e with
  | .sinkWrite c' k' _ => decide (c' = c) && decide (k' = k)
  | .relaySet _ _ => false
  | .notice _ => false

/-- The code an event sends to the Reporter, if it is a notice. -/
def Event.noticeCode? (e : Event) : Option ResultCode :=
  match e with
  | .sinkWrite _ _ _ => none
  | .relaySet _ _ => none
  | .notice code => some code

/-- A port's value: `v` in a block that has been reset, before that the draw of `free` (R242). -/
def State.port {α : Type} (s : State) (free : Nat → α) (v : α) : α := if s.wasReset then v else free s.draws

/-- The line of channel `c` that says its relay is commanded to `p` (R44). -/
def relayLine (p : RelayPos) (c : ChanId) (s : State) : Bool :=
  s.port (fun n => Config.freeRelayLine n c p) (decide ((s.chan c).relay = p.code))

/-- `we_v[c]` (`k = v`) and `we_i[c]` (`k = i`): high for the cycle whose step wrote that sink at least once (R44). A reset
step writes every sink (R241), so every strobe is high then. -/
def writeStrobe (c : ChanId) (k : SinkKind) (s : State) : Bool :=
  s.port (fun n => Config.freeStrobe n c k) (s.events.any (Event.writesSink c k))

/-- `rly_v[c] = (relay[c] = RV)` (R44). -/
def rlyV (c : ChanId) (s : State) : Bool := relayLine .rv c s

/-- `rly_c[c] = (relay[c] = RC)` (R44). -/
def rlyC (c : ChanId) (s : State) : Bool := relayLine .rc c s

/-- `notice_valid` (R44): high for the cycle whose step emitted a notice. -/
def noticeValid (s : State) : Bool := s.port Config.freeNoticeValid (s.events.any fun e => e.noticeCode?.isSome)

/-- `notice_code` while `notice_valid` is high (R44); the spec gives the port no value otherwise, and neither does the model. -/
def noticeCode (s : State) : Option (BitVec 4) :=
  s.port (fun n => some (Config.freeNoticeCode n)) ((s.events.findSome? Event.noticeCode?).map ResultCode.code)

end Sys2Proof.Machine
end

