-- ==== Sys2Proof/Safety.lean ====
section
/-! DEFINITION. What the claims speak of: the invariants of 10_state.md R45, the legal codes of R28 and R210, the safe state
of 41_output_arbiter.md R167, events that reach no output, runs of ticks, and the states a run from reset reaches. -/

namespace Sys2Proof

/-- The commands that may drive an output to something other than zero (R167). -/
def Instr.drives : Instr → Bool
  | .startWave _ _ => true
  | .setManual _ _ => true
  | .stopWave _ => false
  | .enterReg _ => false
  | .exitReg => false
  | .queryStatus => false

end Sys2Proof

namespace Sys2Proof.Machine

/-- The invariants (a) to (i) of R45, which speaks of the states reached from reset; (j), which speaks of a step, is stated of
the step. -/
structure Invariants (s : State) : Prop where
  /-- The state is not one from before the first reset (R242). -/
  hasBeenReset : s.wasReset = true
  /-- (a) -/
  activeOnlyInAnalog : ∀ c, (s.chan c).active = true → s.gmode = .analog
  /-- (b) -/
  registerIffAllReg : s.gmode = .register ↔ ∀ c, (s.chan c).owner = .reg
  /-- (c) -/
  registerIsSafe : s.gmode = .register →
    ∀ c, (s.chan c).outV = 0 ∧ (s.chan c).outI = 0 ∧ (s.chan c).relay = RelayPos.off.code ∧ (s.chan c).mode = .v
  /-- (d) -/
  activePhaseInPeriod : ∀ c, (s.chan c).active = true →
    1000 ≤ (s.chan c).period.toNat ∧ (s.chan c).period.toNat ≤ 60000 ∧ (s.chan c).phase.toNat < (s.chan c).period.toNat
  /-- (e) -/
  activeOnPath : ∀ c, (s.chan c).active = true → (s.chan c).relay = (pathOf (s.chan c).mode).code
  /-- (f) -/
  manualOnPath : ∀ c, (s.chan c).owner = .manual → (s.chan c).relay = (pathOf (s.chan c).mode).code
  /-- (g) -/
  sinksInRange : ∀ c, (s.chan c).outV.toNat ≤ 10000 ∧ (s.chan c).outI.toNat ≤ 25000
  /-- (h) -/
  relayNotThree : ∀ c, (s.chan c).relay ≠ 3
  /-- (i) -/
  dividerInRange : s.updCnt.toNat ≤ 249

/-- The codes and identifiers the block produces: a result code of 0 to 9 (R210), and an identifier within `[1, 247]`, or 0
for none recorded, never 0 in REGISTER (R28). -/
structure LegalCodes (s : State) : Prop where
  resultListed : s.result.toNat ≤ 9
  identifierListed : s.regId.toNat ≤ 247
  identifierInRegister : s.gmode = .register → 1 ≤ s.regId.toNat

/-- The safe state (R167): every sink 0, every relay OFF, no channel active. -/
def SafeState (s : State) : Prop :=
  ∀ c, (s.chan c).outV = 0 ∧ (s.chan c).outI = 0 ∧ (s.chan c).relay = RelayPos.off.code ∧ (s.chan c).active = false

/-- The event is a notice: it writes no sink and sets no relay. -/
def Event.isNotice (e : Event) : Bool := e.noticeCode?.isSome

/-- No event of the list writes a sink or sets a relay. -/
def OutputSilent (es : List Event) : Prop := ∀ e ∈ es, e.isNotice = true

/-- The command a cycle's bus write runs, if it runs one. -/
def CycleIn.command? (inp : CycleIn) : Option Instr :=
  if inp.we ∧ slotOf inp.addr = 0 then
    match decode inp.wdata with
    | .ok i => some i
    | .error _ => none
  else none

/-- What no command writes: the update divider (R29) and the operand registers (R26). -/
structure CommandFrame (s t : State) : Prop where
  updCnt : t.updCnt = s.updCnt
  arg0 : t.arg0 = s.arg0
  arg1 : t.arg1 = s.arg1
  arg2 : t.arg2 = s.arg2

/-- The state a rejected command leaves (R211): `result` holds the code, one notice is appended, nothing else differs. -/
def State.rejectedWith (s : State) (code : ResultCode) (bits : BitVec 4) : State :=
  { s with result := bits, events := s.events ++ [.notice code] }

/-- The sinks and the relay of one channel, as the output interfaces see them (R43). -/
structure Outputs where
  outV : BitVec 16
  outI : BitVec 16
  relay : BitVec 2
  deriving DecidableEq, Repr

/-- The outputs a channel's registers hold. -/
def Channel.outputs (ch : Channel) : Outputs := { outV := ch.outV, outI := ch.outI, relay := ch.relay }

/-- What one event does to the outputs of channel `c` (R43): a sink write sets its sink, a relay event sets the relay to 0
(OFF), 1 (RV) or 2 (RC), and nothing else sets anything. -/
def Outputs.after (c : ChanId) (o : Outputs) (e : Event) : Outputs :=
  match e with
  | .sinkWrite d .v v => if d = c then { o with outV := v } else o
  | .sinkWrite d .i v => if d = c then { o with outI := v } else o
  | .relaySet d .off => if d = c then { o with relay := 0 } else o
  | .relaySet d .rv => if d = c then { o with relay := 1 } else o
  | .relaySet d .rc => if d = c then { o with relay := 2 } else o
  | .notice _ => o

/-- `n` ticks, one after the other (R115: each is a step of its own). -/
def ticks : Nat → State → State
  | 0, s => s
  | n + 1, s => tick (ticks n s)

/-- The spec says what the next step does: the block has been reset, or that step resets it (R242). -/
def State.specified (s : State) : Prop := s.wasReset = true ∨ s.nextInput.rst = true

/-- The states that runs from a reset reach, whatever inputs the host, the time base and the platform give: from
`State.reset`, and from what a reset cycle leaves of any state, a powered-up one among them (R242, R244). -/
inductive Reachable : State → Prop where
  | reset (inputs : List CycleIn) : Reachable { State.reset with inputs := inputs }
  | firstReset {s t : State} (h : s.nextInput.rst = true) (hs : step s = .next t) : Reachable t
  | step {s t : State} (h : Reachable s) (hs : step s = .next t) : Reachable t

end Sys2Proof.Machine
end

