-- ==== Sys2Proof/Certificates/Slice0/Obligations.lean ====
section
/-! DEFINITION. The statements about the model, for the provers. Each docstring names the rule or section it formalises. A
command's statement speaks of `exec` on a state `s`; the step that runs it is `StepRunsDecodedCommand`'s matter. What the spec
gives a step it gives from the first reset on, so a statement about a step has the premise `s.wasReset = true`, or
`s.specified`: the block has been reset, or this step resets it (70_reset_and_hazards.md R242; log entry 22). -/

open Sys2Proof Sys2Proof.Machine

/-! ### Encoding -/

/-- 30_encoding.md sections 1 and 2: decoding the word of a well-formed command gives the command back, with every field at
every value its width admits. -/
def Obligations.DecodeOfEncodeIsIdentity : Prop :=
  ∀ i : Instr, i.wellFormed = true → decode (encode i) = .ok i

/-- 30_encoding.md sections 1 and 2: what the decoder reads from any word is well-formed, and its encoding is that word with
every bit the command does not use cleared (OP, CH and MD for START_WAVE and SET_MANUAL; OP and CH for STOP_WAVE; OP and ID for
ENTER_REG; OP alone for the rest). -/
def Obligations.EncodeOfDecodeKeepsUsedBits : Prop :=
  ∀ (w : Word) (i : Instr), decode w = .ok i →
    i.wellFormed = true ∧
    encode i = w &&& (match i with
      | .startWave _ _ => 0x000003FF#32
      | .stopWave _ => 0x000000FF#32
      | .setManual _ _ => 0x000003FF#32
      | .enterReg _ => 0x00FF000F#32
      | .exitReg => 0x0000000F#32
      | .queryStatus => 0x0000000F#32)

/-- 30_encoding.md section 4: each of the 2^32 words decodes to the one command of its opcode, or is refused because its
opcode is 0 or 7 to 15. -/
def Obligations.DecoderIsTotalByOpcode : Prop :=
  ∀ w : Word,
    (∃ i, decode w = .ok i ∧ i.opcode = (w.extractLsb' 0 4).toNat) ∧
        1 ≤ (w.extractLsb' 0 4).toNat ∧ (w.extractLsb' 0 4).toNat ≤ 6 ∨
      decode w = .error (.reservedOpcode (w.extractLsb' 0 4).toNat) ∧
        ((w.extractLsb' 0 4).toNat = 0 ∨ 7 ≤ (w.extractLsb' 0 4).toNat)

/-- R89: two words that agree in OP, CH and MD, and in ID where the opcode is ENTER_REG's, do the same in every state. -/
def Obligations.IgnoredBitsChangeNothing : Prop :=
  ∀ (w w' : Word) (s : State), w.extractLsb' 0 10 = w'.extractLsb' 0 10 →
    (w.extractLsb' 0 4 = 4#4 → w.extractLsb' 16 8 = w'.extractLsb' 16 8) →
    executeCommand w s = executeCommand w' s

/-- 30_encoding.md section 5: the command words of the encoding examples decode to the commands they stand for. -/
def Obligations.ExampleWordsDecode : Prop :=
  decode 0x00000011 = .ok (.startWave 1 0) ∧ decode 0x00000121 = .ok (.startWave 2 1) ∧
  decode 0x00000041 = .ok (.startWave 4 0) ∧ decode 0x00000002 = .ok (.stopWave 0) ∧
  decode 0x00000032 = .ok (.stopWave 3) ∧ decode 0x00000013 = .ok (.setManual 1 0) ∧
  decode 0x00000133 = .ok (.setManual 3 1) ∧ decode 0x00110004 = .ok (.enterReg 17) ∧
  decode 0x00F70004 = .ok (.enterReg 247) ∧ decode 0x00F80004 = .ok (.enterReg 248) ∧
  decode 0x00000005 = .ok .exitReg ∧ decode 0x00000006 = .ok .queryStatus

/-- R90: a word with opcode 0 or 7 to 15 writes 9 to `result`, emits one notice of INVALID_OPCODE and changes no other state,
in both modes; so does the example word 7. -/
def Obligations.ReservedOpcodeIsRejected : Prop :=
  ∀ (w : Word) (s : State), ((w.extractLsb' 0 4).toNat = 0 ∨ 7 ≤ (w.extractLsb' 0 4).toNat) →
    executeCommand w s = .next { s with result := 9, events := s.events ++ [.notice .invalidOpcode] }

/-- R94 with R80, R93: the pseudo-instructions write their operand registers first and then the word of their command, with
every CH below 16, MD below 4 and ID below 256, and every operand that fits its 32 bits: from −2^31 to 2^32 − 1, the period not
negative. -/
def Obligations.PseudoInstructionsExpand : Prop :=
  ∀ (ch id : Nat) (md : HostMode) (amp per ctr value : Int), ch < 16 → md.number < 4 → id < 256 →
    (∀ x ∈ [amp, ctr, value], -2 ^ 31 ≤ x ∧ x < 2 ^ 32) → 0 ≤ per → per < 2 ^ 32 →
    (HostStmt.start ch md amp per ctr).cycles =
      [CycleIn.write 0x04 (BitVec.ofInt 32 amp), CycleIn.write 0x08 (BitVec.ofInt 32 per),
        CycleIn.write 0x0C (BitVec.ofInt 32 ctr), CycleIn.write 0x00 (encode (.startWave ch md.number))] ∧
    (HostStmt.stop ch).cycles = [CycleIn.write 0x00 (encode (.stopWave ch))] ∧
    HostStmt.stopAll.cycles = [CycleIn.write 0x00 (encode (.stopWave 0))] ∧
    (HostStmt.set ch md value).cycles =
      [CycleIn.write 0x04 (BitVec.ofInt 32 value), CycleIn.write 0x00 (encode (.setManual ch md.number))] ∧
    (HostStmt.enter id).cycles = [CycleIn.write 0x00 (encode (.enterReg id))] ∧
    HostStmt.exit.cycles = [CycleIn.write 0x00 (encode .exitReg)] ∧
    HostStmt.query.cycles = [CycleIn.write 0x00 (encode .queryStatus)]

/-! ### The clock cycle -/

/-- 00_scope.md R7, 20_memory.md R65 and R66, 30_encoding.md R82, 70_reset_and_hazards.md R245: what a cycle of a reset block
that is no reset does, whole. `b` is the state with the cycle's input taken, an empty event list and a free value on `bus_rdata`.
A cycle whose bus write puts a command word on `CMD` runs the decoded command on `b`; any bus write is the register write of its
address on `b`; a cycle without one leaves `b`, but for the word that a read puts on `bus_rdata`; and in each a tick of the same
cycle comes last. So a cycle with no port high changes no register and emits nothing. (That the inputs stand in the state, the
event list, the free value and the idle cycle are the model's own: log entries 1, 3 and 4; the read beside a tick is log entry
21's.) -/
def Obligations.StepRunsDecodedCommand : Prop :=
  ∀ (s : State) (inp : CycleIn) (rest : List CycleIn), s.wasReset = true → s.inputs = inp :: rest → inp.rst = false →
    let b : State := { s with events := [], rdata := Config.freeRdata s.draws, draws := s.draws + 1, inputs := rest }
    let thenTick := fun o : Host.Outcome State Fault Refusal =>
      match o with
      | .next t => .next (if inp.tick then tick t else t)
      | .fault r => .fault r
      | .refused r => .refused r
    (∀ i, inp.we = true → inp.addr.toNat / 4 = 0 → decode inp.wdata = .ok i → step s = thenTick (exec i b)) ∧
    (inp.we = true → step s = thenTick (regWrite inp.addr inp.wdata b)) ∧
    (inp.we = false → step s =
      thenTick (.next { b with rdata := if inp.re then regRead inp.addr s else Config.freeRdata s.draws })) ∧
    (inp.we = false → inp.re = false → inp.tick = false → step s = .next b)

/-- R245: in a cycle with a bus write and a tick, the write is taken first and the tick sees the state it left; a START_WAVE
ends such a cycle with phase 1 and elapsed 1; after a STOP_WAVE, SET_MANUAL or ENTER_REG the tick writes no sink of the channels
named; and a bus read in a tick cycle returns the word from before the tick. `b` is the state at the beginning of the cycle, the
cycle's inputs taken. -/
def Obligations.WriteComesBeforeTickInACycle : Prop :=
  ∀ s : State, s.wasReset = true → s.nextInput.rst = false → s.nextInput.tick = true →
    let inp := s.nextInput
    let b := s.beginCycle
    (inp.we = true → ∀ t, regWrite inp.addr inp.wdata b = .next t → step s = .next (tick t)) ∧
    (inp.re = true → inp.we = false → ∃ t, step s = .next t ∧ t.rdata = regRead inp.addr s) ∧
    (∀ c m t, s.gmode = .analog → exec (.startWave (ChanId.number c) (Mode.number m)) b = .next t →
      (t.result = 0 ∨ t.result = 1) → ((tick t).chan c).phase = 1 ∧ ((tick t).chan c).elapsed = 1) ∧
    (∀ ch c t, s.gmode = .analog → (ch = 0 ∨ ch = ChanId.number c) → exec (.stopWave ch) b = .next t →
      ∃ es, (tick t).events = t.events ++ es ∧ ∀ k v, Event.sinkWrite c k v ∉ es) ∧
    (∀ c m t, exec (.setManual (ChanId.number c) (Mode.number m)) b = .next t → t.result = 0 →
      ∃ es, (tick t).events = t.events ++ es ∧ ∀ k v, Event.sinkWrite c k v ∉ es) ∧
    (∀ id t, exec (.enterReg id) b = .next t → t.result = 0 → (tick t).events = t.events)

/-- R240, R241: a reset cycle puts every register at its reset value whatever the state and the other inputs are, emits the
zero writes and relay-off events in their order and no notice, and every write strobe is high. -/
def Obligations.ResetOverridesEverything : Prop :=
  ∀ (s : State) (inp : CycleIn) (rest : List CycleIn), s.inputs = inp :: rest → inp.rst = true →
    ∃ t, step s = .next t ∧
      t.gmode = .analog ∧ t.regId = 0 ∧ t.updCnt = 0 ∧ t.result = 0 ∧ t.arg0 = 0 ∧ t.arg1 = 0 ∧ t.arg2 = 0 ∧
      (∀ c, t.chan c =
        { owner := .none, mode := .v, relay := 0, amp := 0, period := 0, center := 0, phase := 0, elapsed := 0,
          outV := 0, outI := 0, manual := 0,
          snap := { flags := 0, amp := 0, period := 0, center := 0, elapsed := 0, progress := 0, manual := 0 } }) ∧
      t.events =
        [.sinkWrite .c1 .v 0, .sinkWrite .c1 .i 0, .sinkWrite .c2 .v 0, .sinkWrite .c2 .i 0, .sinkWrite .c3 .v 0,
          .sinkWrite .c3 .i 0, .relaySet .c1 .off, .relaySet .c2 .off, .relaySet .c3 .off] ∧
      (∀ c k, writeStrobe c k t = true) ∧ noticeValid t = false

/-- R49: the register values right after reset. -/
def Obligations.ResetValuesOfRegisters : Prop :=
  State.reset.gmode = .analog ∧ State.reset.regId = 0 ∧ State.reset.updCnt = 0 ∧ State.reset.result = 0 ∧
  State.reset.arg0 = 0 ∧ State.reset.arg1 = 0 ∧ State.reset.arg2 = 0 ∧
  ∀ c, (State.reset.chan c).owner = .none ∧ (State.reset.chan c).active = false ∧ (State.reset.chan c).mode = .v ∧
    (State.reset.chan c).relay = 0 ∧ (State.reset.chan c).outV = 0 ∧ (State.reset.chan c).outI = 0 ∧
    (State.reset.chan c).amp = 0 ∧ (State.reset.chan c).period = 0 ∧ (State.reset.chan c).center = 0 ∧
    (State.reset.chan c).phase = 0 ∧ (State.reset.chan c).elapsed = 0 ∧ (State.reset.chan c).manual = 0 ∧
    (State.reset.chan c).snap =
      { flags := 0, amp := 0, period := 0, center := 0, elapsed := 0, progress := 0, manual := 0 }

/-- 60_exceptions.md section 1 (no fatal condition) and section 2 (no traps): from every state a step gives a next state. -/
def Obligations.EveryStepCompletes : Prop :=
  (∀ (i : Instr) (s : State), ∃ t, exec i s = .next t) ∧ ∀ s : State, ∃ t, step s = .next t

/-! ### The register space -/

/-- 20_memory.md section 2: a cycle with a read and no write puts the slot's word of the state before the cycle on `bus_rdata`;
without a tick nothing else happens: no register changes and no event is emitted. (The event list, the input list and the count of
free values are the model's own fields of the cycle: log entries 1, 3 and 4.) -/
def Obligations.BusReadReturnsTheSlot : Prop :=
  ∀ (s : State) (inp : CycleIn) (rest : List CycleIn),
    s.wasReset = true → s.inputs = inp :: rest → inp.rst = false → inp.re = true → inp.we = false →
    (∃ t, step s = .next t ∧ t.rdata = regRead inp.addr s) ∧
    (inp.tick = false →
      step s =
        .next { s with events := [], rdata := regRead inp.addr s, draws := s.draws + 1, inputs := rest })

/-- 20_memory.md section 4 (ordering model): with both strobes high the write takes effect as a normal write. The read data is
unspecified then, so the statement says nothing of `rdata`; nor of cycles before the first reset, where nothing is specified
(log entry 22). -/
def Obligations.DoubleStrobeIsPlainWrite : Prop :=
  ∀ (s : State) (inp : CycleIn), s.wasReset = true ∨ inp.rst = true → inp.we = true →
    ∃ t u, step { s with inputs := { inp with re := true } :: s.inputs } = .next t ∧
      step { s with inputs := { inp with re := false } :: s.inputs } = .next u ∧ { t with rdata := u.rdata } = u

/-- R61: the global registers. -/
def Obligations.GlobalRegisterMap : Prop :=
  ∀ (s : State) (w : Word),
    regRead 0x00 s = 0 ∧ regWrite 0x00 w s = executeCommand w s ∧
    regRead 0x04 s = s.arg0 ∧ regWrite 0x04 w s = .next { s with arg0 := w } ∧
    regRead 0x08 s = s.arg1 ∧ regWrite 0x08 w s = .next { s with arg1 := w } ∧
    regRead 0x0C s = s.arg2 ∧ regWrite 0x0C w s = .next { s with arg2 := w } ∧
    regRead 0x10 s = statusWord s ∧ regWrite 0x10 w s = .next s ∧
    regRead 0x14 s = 0x53494D01 ∧ regWrite 0x14 w s = .next s ∧
    ∀ a : Addr, 0x18 ≤ a.toNat → a.toNat < 0x40 → regRead a s = 0 ∧ regWrite a w s = .next s

/-- R63: the registers of channel `c`, at byte offset `0x40·c`; all of them ignore writes. -/
def Obligations.ChannelRegisterMap : Prop :=
  ∀ (s : State) (c : ChanId),
    let rd := fun off => regRead (BitVec.ofNat 8 (0x40 * c.number + off)) s
    rd 0x00 = chStateWord (s.chan c) ∧ rd 0x04 = (s.chan c).outV.setWidth 32 ∧ rd 0x08 = (s.chan c).outI.setWidth 32 ∧
    rd 0x0C = (s.chan c).manual.setWidth 32 ∧ rd 0x10 = (s.chan c).amp.setWidth 32 ∧
    rd 0x14 = (s.chan c).period.setWidth 32 ∧ rd 0x18 = (s.chan c).center ∧ rd 0x1C = (s.chan c).phase.setWidth 32 ∧
    rd 0x20 = (s.chan c).snap.flags.setWidth 32 ∧ rd 0x24 = (s.chan c).snap.amp ∧ rd 0x28 = (s.chan c).snap.period ∧
    rd 0x2C = (s.chan c).snap.center ∧ rd 0x30 = (s.chan c).snap.elapsed ∧
    rd 0x34 = (s.chan c).snap.progress.setWidth 32 ∧ rd 0x38 = (s.chan c).snap.manual.setWidth 32 ∧ rd 0x3C = 0 ∧
    ∀ (off : Nat) (w : Word), off < 0x40 → regWrite (BitVec.ofNat 8 (0x40 * c.number + off)) w s = .next s

/-- R64: the fields of STATUS, CH_STATE and SNAP_FLAGS (as QUERY_STATUS leaves it), and 0 in every bit not listed. -/
def Obligations.StatusFieldLayouts : Prop :=
  ∀ (s : State) (c : ChanId),
    let status := regRead 0x10 s
    let chState := regRead (BitVec.ofNat 8 (0x40 * c.number)) s
    status.extractLsb' 0 4 = s.result ∧ (status.getLsbD 8 = true ↔ s.gmode = .register) ∧
    status.getLsbD (11 + c.number) = (s.chan c).active ∧ status.extractLsb' 16 8 = s.regId ∧
    (∀ n, 4 ≤ n → n ≠ 8 → n ≠ 12 → n ≠ 13 → n ≠ 14 → (n < 16 ∨ 24 ≤ n) → status.getLsbD n = false) ∧
    chState.extractLsb' 0 2 =
      (match (s.chan c).owner with | .none => 0#2 | .manual => 1#2 | .wave => 2#2 | .reg => 3#2) ∧
    (chState.getLsbD 4 = true ↔ (s.chan c).mode = .c) ∧ chState.extractLsb' 8 2 = (s.chan c).relay ∧
    chState.getLsbD 12 = (s.chan c).active ∧
    (∀ n, 2 ≤ n → n ≠ 4 → n ≠ 8 → n ≠ 9 → n ≠ 12 → chState.getLsbD n = false) ∧
    ∃ t, exec .queryStatus s = .next t ∧
      let flags := regRead (BitVec.ofNat 8 (0x40 * c.number + 0x20)) t
      flags.getLsbD 0 = (s.chan c).active ∧ (flags.getLsbD 1 = true ↔ (s.chan c).mode = .c) ∧
      ∀ n, 2 ≤ n → flags.getLsbD n = false

/-- R66: what a register write does, by the slot it reaches; a write to an operand register emits no event. -/
def Obligations.RegisterWriteBySlot : Prop :=
  ∀ (a : Addr) (w : Word) (s : State),
    let slot := (a.extractLsb' 2 6).toNat
    regWrite a w s =
      if slot = 0 then executeCommand w s
      else if slot = 1 then .next { s with arg0 := w }
      else if slot = 2 then .next { s with arg1 := w }
      else if slot = 3 then .next { s with arg2 := w }
      else .next s

/-- R62: reserved and unmapped slots read 0 and ignore writes, every slot but `CMD` and the operand registers ignores writes,
and no access is an error. -/
def Obligations.ReservedSlotsReadZero : Prop :=
  ∀ (a : Addr) (w : Word) (s : State),
    (6 ≤ a.toNat / 4 → a.toNat / 4 ≤ 15 → regRead a s = 0) ∧
    (a.toNat / 4 % 16 = 15 → regRead a s = 0) ∧
    (4 ≤ a.toNat / 4 → regWrite a w s = .next s) ∧
    ∃ t, regWrite a w s = .next t

/-- R68: `bus_addr[1:0]` is ignored, so that two addresses of one slot read and write alike. -/
def Obligations.LowAddressBitsIgnored : Prop :=
  ∀ (a b : Addr) (w : Word) (s : State), a.extractLsb' 2 6 = b.extractLsb' 2 6 →
    regRead a s = regRead b s ∧ regWrite a w s = regWrite b w s

/-! ### START_WAVE and STOP_WAVE -/

/-- R120: START_WAVE, whole: its encoding, each rejection in the order of its checks, and what it does when all pass. The other
channels and every register not named keep their values. -/
def Obligations.StartWaveEffect : Prop :=
  (∀ (w : Word) (s : State), w.extractLsb' 0 4 = 1#4 →
    executeCommand w s = exec (.startWave (w.extractLsb' 4 4).toNat (w.extractLsb' 8 2).toNat) s) ∧
  (∀ (ch md : Nat) (s : State), s.gmode = .register →
    exec (.startWave ch md) s = .next (s.rejectedWith .wrongGlobalMode 6)) ∧
  (∀ (ch md : Nat) (s : State), s.gmode = .analog → (ch = 0 ∨ 3 < ch) →
    exec (.startWave ch md) s = .next (s.rejectedWith .invalidChannel 2)) ∧
  (∀ (c : ChanId) (md : Nat) (s : State), s.gmode = .analog → 1 < md →
    exec (.startWave c.number md) s = .next (s.rejectedWith .invalidMode 3)) ∧
  (∀ (c : ChanId) (m : Mode) (s : State), s.gmode = .analog → (s.arg1.toNat < 1000 ∨ 60000 < s.arg1.toNat) →
    exec (.startWave c.number m.number) s = .next (s.rejectedWith .invalidPeriod 4)) ∧
  (∀ (c : ChanId) (m : Mode) (s : State), s.gmode = .analog → 1000 ≤ s.arg1.toNat → s.arg1.toNat ≤ 60000 →
    s.arg0.toInt < 0 → exec (.startWave c.number m.number) s = .next (s.rejectedWith .invalidAmplitude 5)) ∧
  (∀ (c : ChanId) (m : Mode) (s : State), s.gmode = .analog → 1000 ≤ s.arg1.toNat → s.arg1.toNat ≤ 60000 →
    0 ≤ s.arg0.toInt →
    let full : Int := if m = .v then 10000 else 25000
    let warn := s.arg2.toInt + s.arg0.toInt > full ∨ s.arg2.toInt - s.arg0.toInt < 0
    let first := BitVec.ofInt 16 (min (max s.arg2.toInt 0) full)
    ∃ t, exec (.startWave c.number m.number) s = .next t ∧
      t.chan c =
        { s.chan c with
          owner := .wave, mode := m, relay := if m = .v then 1 else 2, amp := s.arg0.setWidth 31,
          period := s.arg1.setWidth 16, center := s.arg2, phase := 0, elapsed := 0,
          outV := if m = .v then first else (s.chan c).outV, outI := if m = .c then first else (s.chan c).outI } ∧
      (∀ d, d ≠ c → t.chan d = s.chan d) ∧ t.gmode = s.gmode ∧ t.regId = s.regId ∧ CommandFrame s t ∧
      (warn → t.result = 1 ∧ t.events = s.events ++
        [.relaySet c (if m = .v then .rv else .rc), .sinkWrite c (if m = .v then .v else .i) first,
          .notice .rangeWarning]) ∧
      (¬ warn → t.result = 0 ∧ t.events = s.events ++
        [.relaySet c (if m = .v then .rv else .rc), .sinkWrite c (if m = .v then .v else .i) first]))

/-- R121: in ANALOG, START_WAVE is accepted (code 0 or 1) exactly for channels 1 to 3, modes V and C, periods 1000 to 60000
and amplitudes that are not negative, whatever the center. (The rule's own inference, the read-back, is
`StartWaveReadsBack`.) -/
def Obligations.StartWaveAcceptance : Prop :=
  ∀ (ch md : Nat) (s : State), s.gmode = .analog →
    ∃ t, exec (.startWave ch md) s = .next t ∧
      ((t.result = 0 ∨ t.result = 1) ↔
        (1 ≤ ch ∧ ch ≤ 3) ∧ md ≤ 1 ∧ (1000 ≤ s.arg1.toNat ∧ s.arg1.toNat ≤ 60000) ∧ 0 ≤ s.arg0.toInt)

/-- 40_waveform_engine.md section 5, the sentence "`CH_AMP`, `CH_PERIOD` and `CH_CENTER` read back `a`, `p` and `m` exactly",
which the spec marks as derived: after an accepted START_WAVE the channel is active and the operands read back. -/
def Obligations.StartWaveReadsBack : Prop :=
  ∀ (c : ChanId) (m : Mode) (s : State), s.gmode = .analog → 1000 ≤ s.arg1.toNat → s.arg1.toNat ≤ 60000 →
    0 ≤ s.arg0.toInt →
    ∃ t, exec (.startWave c.number m.number) s = .next t ∧ (t.chan c).active = true ∧
      regRead (BitVec.ofNat 8 (0x40 * c.number + 0x10)) t = s.arg0 ∧
      regRead (BitVec.ofNat 8 (0x40 * c.number + 0x14)) t = s.arg1 ∧
      regRead (BitVec.ofNat 8 (0x40 * c.number + 0x18)) t = s.arg2

/-- R130: STOP_WAVE, whole: its encoding, both rejections, and the stop of one channel or of all, with every active channel's
sink zeroed at once in channel order and every inactive channel left alone (R131). -/
def Obligations.StopWaveEffect : Prop :=
  (∀ (w : Word) (s : State), w.extractLsb' 0 4 = 2#4 →
    executeCommand w s = exec (.stopWave (w.extractLsb' 4 4).toNat) s) ∧
  (∀ (ch : Nat) (s : State), s.gmode = .register →
    exec (.stopWave ch) s = .next (s.rejectedWith .wrongGlobalMode 6)) ∧
  (∀ (ch : Nat) (s : State), s.gmode = .analog → 3 < ch →
    exec (.stopWave ch) s = .next (s.rejectedWith .invalidChannel 2)) ∧
  (∀ (ch : Nat) (s : State), s.gmode = .analog → ch ≤ 3 →
    ∃ t, exec (.stopWave ch) s = .next t ∧ t.result = 0 ∧ t.gmode = s.gmode ∧ t.regId = s.regId ∧ CommandFrame s t ∧
      (∀ c : ChanId, (ch = 0 ∨ ch = c.number) → (s.chan c).owner = .wave →
        t.chan c =
          { s.chan c with
            owner := .none, outV := if (s.chan c).mode = .v then 0 else (s.chan c).outV,
            outI := if (s.chan c).mode = .c then 0 else (s.chan c).outI }) ∧
      (∀ c : ChanId, ¬ ((ch = 0 ∨ ch = c.number) ∧ (s.chan c).owner = .wave) → t.chan c = s.chan c) ∧
      t.events = s.events ++ ([ChanId.c1, ChanId.c2, ChanId.c3].filter fun c =>
          decide ((ch = 0 ∨ ch = c.number) ∧ (s.chan c).owner = .wave)).map fun c =>
            Event.sinkWrite c (if (s.chan c).mode = .v then .v else .i) 0)

/-- 20_memory.md section 3 (side effects and idempotency), 40_waveform_engine.md section 6: a second STOP_WAVE of the same channels
and a second QUERY_STATUS leave the state the first one left, to the last bit; a repeated SET_MANUAL leaves every register as the
first one left it and emits its relay event and its sink write again; and a repeated write to any slot but `CMD` leaves the state
the first one left. -/
def Obligations.RepeatedCommandsChangeNothingMore : Prop :=
  (∀ (ch : Nat) (s t : State), s.gmode = .analog → ch ≤ 3 → exec (.stopWave ch) s = .next t →
    exec (.stopWave ch) t = .next t) ∧
  (∀ (ch md : Nat) (s t : State), exec (.setManual ch md) s = .next t → t.result = 0 →
    ∃ (c : ChanId) (m : Mode), ch = c.number ∧ md = m.number ∧
      exec (.setManual ch md) t =
        .next { t with events := t.events ++
          [.relaySet c (if m = .v then .rv else .rc),
            .sinkWrite c (if m = .v then .v else .i) (s.arg0.setWidth 16)] }) ∧
  (∀ s t : State, exec .queryStatus s = .next t → exec .queryStatus t = .next t) ∧
  ∀ (a : Addr) (w : Word) (s t : State), 1 ≤ a.toNat / 4 → regWrite a w s = .next t → regWrite a w t = .next t

/-! ### SET_MANUAL, ENTER_REG and EXIT_REG -/

/-- R154, R155: SET_MANUAL, whole: its encoding, each rejection in the order of its checks (each with no side effect, so that
a running waveform goes on), and what it does when all pass: stop a running waveform with its zero write, then select the path
and drive the value. -/
def Obligations.SetManualEffect : Prop :=
  (∀ (w : Word) (s : State), w.extractLsb' 0 4 = 3#4 →
    executeCommand w s = exec (.setManual (w.extractLsb' 4 4).toNat (w.extractLsb' 8 2).toNat) s) ∧
  (∀ (ch md : Nat) (s : State), s.gmode = .register →
    exec (.setManual ch md) s = .next (s.rejectedWith .wrongGlobalMode 6)) ∧
  (∀ (ch md : Nat) (s : State), s.gmode = .analog → (ch = 0 ∨ 3 < ch) →
    exec (.setManual ch md) s = .next (s.rejectedWith .invalidChannel 2)) ∧
  (∀ (c : ChanId) (md : Nat) (s : State), s.gmode = .analog → 1 < md →
    exec (.setManual c.number md) s = .next (s.rejectedWith .invalidMode 3)) ∧
  (∀ (c : ChanId) (m : Mode) (s : State), s.gmode = .analog →
    (s.arg0.toInt < 0 ∨ (if m = .v then 10000 else 25000) < s.arg0.toInt) →
    exec (.setManual c.number m.number) s = .next (s.rejectedWith .valueOutOfRange 8)) ∧
  (∀ (c : ChanId) (m : Mode) (s : State), s.gmode = .analog → 0 ≤ s.arg0.toInt →
    s.arg0.toInt ≤ (if m = .v then 10000 else 25000) →
    let v := s.arg0.setWidth 16
    let wasV := (s.chan c).owner = .wave ∧ (s.chan c).mode = .v
    let wasI := (s.chan c).owner = .wave ∧ (s.chan c).mode = .c
    ∃ t, exec (.setManual c.number m.number) s = .next t ∧
      t.chan c =
        { s.chan c with
          owner := .manual, mode := m, relay := if m = .v then 1 else 2,
          outV := if m = .v then v else if wasV then 0 else (s.chan c).outV,
          outI := if m = .c then v else if wasI then 0 else (s.chan c).outI, manual := v } ∧
      (∀ d, d ≠ c → t.chan d = s.chan d) ∧ t.gmode = s.gmode ∧ t.regId = s.regId ∧ CommandFrame s t ∧ t.result = 0 ∧
      t.events = s.events ++
        ((if wasV then [.sinkWrite c .v 0] else if wasI then [.sinkWrite c .i 0] else []) ++
          [.relaySet c (if m = .v then .rv else .rc), .sinkWrite c (if m = .v then .v else .i) v]))

/-- R160, R161: ENTER_REG, whole: its encoding, both rejections, and the forced safe state of every channel with its events in
order: the stop writes of the active channels, the six zero writes, the three relay-off events. -/
def Obligations.EnterRegEffect : Prop :=
  (∀ (w : Word) (s : State), w.extractLsb' 0 4 = 4#4 →
    executeCommand w s = exec (.enterReg (w.extractLsb' 16 8).toNat) s) ∧
  (∀ (id : Nat) (s : State), s.gmode = .register →
    exec (.enterReg id) s = .next (s.rejectedWith .wrongGlobalMode 6)) ∧
  (∀ (id : Nat) (s : State), s.gmode = .analog → (id < 1 ∨ 247 < id) →
    exec (.enterReg id) s = .next (s.rejectedWith .invalidIdentifier 7)) ∧
  (∀ (id : Nat) (s : State), s.gmode = .analog → 1 ≤ id → id ≤ 247 →
    ∃ t, exec (.enterReg id) s = .next t ∧ t.gmode = .register ∧ t.regId.toNat = id ∧ t.result = 0 ∧ CommandFrame s t ∧
      (∀ c, t.chan c = { s.chan c with owner := .reg, mode := .v, relay := 0, outV := 0, outI := 0 }) ∧
      t.events = s.events ++
        (([ChanId.c1, ChanId.c2, ChanId.c3].filter fun c => decide ((s.chan c).owner = .wave)).map fun c =>
          Event.sinkWrite c (if (s.chan c).mode = .v then .v else .i) 0) ++
        [.sinkWrite .c1 .v 0, .sinkWrite .c1 .i 0, .sinkWrite .c2 .v 0, .sinkWrite .c2 .i 0, .sinkWrite .c3 .v 0,
          .sinkWrite .c3 .i 0, .relaySet .c1 .off, .relaySet .c2 .off, .relaySet .c3 .off])

/-- R165: EXIT_REG, whole: its encoding, its rejection, and the return to ANALOG with every channel unowned and no sink or
relay written. -/
def Obligations.ExitRegEffect : Prop :=
  (∀ (w : Word) (s : State), w.extractLsb' 0 4 = 5#4 → executeCommand w s = exec .exitReg s) ∧
  (∀ s : State, s.gmode = .analog → exec .exitReg s = .next (s.rejectedWith .wrongGlobalMode 6)) ∧
  (∀ s : State, s.gmode = .register →
    ∃ t, exec .exitReg s = .next t ∧ t.gmode = .analog ∧ t.regId = s.regId ∧ t.result = 0 ∧ CommandFrame s t ∧
      (∀ c, t.chan c = { s.chan c with owner := .none }) ∧ t.events = s.events)

/-! ### QUERY_STATUS -/

/-- R190: QUERY_STATUS, whole: its encoding, and in both modes the latch of every channel's snapshot, which changes nothing but
the snapshots and `result`. -/
def Obligations.QueryStatusEffect : Prop :=
  (∀ (w : Word) (s : State), w.extractLsb' 0 4 = 6#4 → executeCommand w s = exec .queryStatus s) ∧
  (∀ s : State,
    ∃ t, exec .queryStatus s = .next t ∧ t.result = 0 ∧ t.events = s.events ∧ t.gmode = s.gmode ∧ t.regId = s.regId ∧
      CommandFrame s t ∧
      ∀ c, ∃ snap : Snapshot, t.chan c = { s.chan c with snap := snap } ∧
        (snap.flags.getLsbD 0 = true ↔ (s.chan c).owner = .wave) ∧
        (snap.flags.getLsbD 1 = true ↔ (s.chan c).mode = .c) ∧ snap.manual = (s.chan c).manual ∧
        ((s.chan c).owner = .wave →
          snap.amp.toNat = (s.chan c).amp.toNat ∧ snap.period.toNat = (s.chan c).period.toNat ∧
          snap.center = (s.chan c).center ∧ snap.elapsed = (s.chan c).elapsed ∧ snap.progress = progress (s.chan c)) ∧
        ((s.chan c).owner ≠ .wave →
          snap.amp = 0 ∧ snap.period = 0 ∧ snap.center = 0 ∧ snap.elapsed = 0 ∧ snap.progress = 0))

/-- R191: the progress of a channel within its period is the Q0.16 fraction of the phase, below 1; and the phase is the elapsed
time modulo the period for as long as `elapsed` has not wrapped since the start. -/
def Obligations.ProgressIsPhaseFraction : Prop :=
  (∀ ch : Channel, ch.phase.toNat < ch.period.toNat →
    (progress ch).toNat = ch.phase.toNat * 65536 / ch.period.toNat ∧ ch.phase.toNat * 65536 / ch.period.toNat ≤ 65535 ∧
    ch.phase.toNat * 65536 < 2 ^ 32) ∧
  ∀ (s : State) (c : ChanId) (n : Nat), (s.chan c).active = true → (s.chan c).phase = 0 → (s.chan c).elapsed = 0 →
    0 < (s.chan c).period.toNat → n < 2 ^ 32 →
    ((ticks n s).chan c).phase.toNat = ((ticks n s).chan c).elapsed.toNat % ((ticks n s).chan c).period.toNat

/-! ### Results and notices -/

/-- R211: every command word is either accepted (code 0 or 1), or changes exactly `result`, to its code of 2 to 9, and the
event list, by one notice of that code. -/
def Obligations.RejectionIsAllOrNothing : Prop :=
  ∀ (w : Word) (s : State), ∃ t, executeCommand w s = .next t ∧
    (t.result = 0 ∨ t.result = 1 ∨
      ∃ code : ResultCode, code ≠ .ok ∧ code ≠ .rangeWarning ∧ 2 ≤ code.code.toNat ∧ code.code.toNat ≤ 9 ∧
        t = { s with result := code.code, events := s.events ++ [.notice code] })

/-- R212, R210: the result code of every command in every state, each command's checks in their fixed order with the first
failure reported; the reserved opcodes come before any mode check. -/
def Obligations.ResultCodesInCheckOrder : Prop :=
  ∀ s : State,
    let period := s.arg1.toNat
    let a := s.arg0.toInt
    let m := s.arg2.toInt
    (∀ ch md, ∃ t, exec (.startWave ch md) s = .next t ∧
      t.result =
        (if s.gmode = .register then 6
        else if ch = 0 ∨ 3 < ch then 2
        else if 1 < md then 3
        else if period < 1000 ∨ 60000 < period then 4
        else if a < 0 then 5
        else if m + a > (if md = 0 then 10000 else 25000) ∨ m - a < 0 then 1
        else 0)) ∧
    (∀ ch, ∃ t, exec (.stopWave ch) s = .next t ∧
      t.result = (if s.gmode = .register then 6 else if 3 < ch then 2 else 0)) ∧
    (∀ ch md, ∃ t, exec (.setManual ch md) s = .next t ∧
      t.result =
        (if s.gmode = .register then 6
        else if ch = 0 ∨ 3 < ch then 2
        else if 1 < md then 3
        else if a < 0 ∨ (if md = 0 then 10000 else 25000) < a then 8
        else 0)) ∧
    (∀ id, ∃ t, exec (.enterReg id) s = .next t ∧
      t.result = (if s.gmode = .register then 6 else if id < 1 ∨ 247 < id then 7 else 0)) ∧
    (∃ t, exec .exitReg s = .next t ∧ t.result = (if s.gmode = .analog then 6 else 0)) ∧
    (∃ t, exec .queryStatus s = .next t ∧ t.result = 0) ∧
    ∀ w : Word, ((w.extractLsb' 0 4).toNat = 0 ∨ 7 ≤ (w.extractLsb' 0 4).toNat) →
      ∃ t, executeCommand w s = .next t ∧ t.result = 9

/-- 60_exceptions.md section 1 (notices): a command with a code other than OK emits exactly one notice, of that code and the last of its own events; one with OK
emits none. A tick emits none, nor does a write to another slot; so a step with a `CMD` write emits the command's notice alone,
last where the cycle has no tick, and every other step (a tick, a bus read, an operand write, a reset) emits none. In a cycle
with a command and a tick the command's events come first, its notice the last of them, and the tick's events after it: the
model's reading of "last event of its step" (log entry 15). -/
def Obligations.AtMostOneNotice : Prop :=
  (∀ (w : Word) (s t : State), executeCommand w s = .next t →
    ∃ es, (∀ e ∈ es, e.isNotice = false) ∧
      ((t.result = 0 ∧ t.events = s.events ++ es) ∨
        ∃ code : ResultCode, code ≠ .ok ∧ t.result = code.code ∧ t.events = s.events ++ es ++ [.notice code])) ∧
  (∀ s : State, ∃ es, (tick s).events = s.events ++ es ∧ ∀ e ∈ es, e.isNotice = false) ∧
  (∀ (a : Addr) (w : Word) (s t : State), a.toNat / 4 ≠ 0 → regWrite a w s = .next t → t.events = s.events) ∧
  ∀ s t : State, s.specified → step s = .next t →
    let inp := s.nextInput
    let runsCommand := inp.rst = false ∧ inp.we = true ∧ inp.addr.toNat / 4 = 0
    let notices := t.events.filter Event.isNotice
    (¬ runsCommand → notices = []) ∧
    (runsCommand → t.result = 0 → notices = []) ∧
    (runsCommand → t.result ≠ 0 →
      ∃ code : ResultCode, code.code = t.result ∧ notices = [.notice code] ∧
        (inp.tick = false → t.events.getLast? = some (.notice code)) ∧
        ∃ (u : State) (es ts : List Event), executeCommand inp.wdata s.beginCycle = .next u ∧
          u.events = es ++ [.notice code] ∧ t.events = es ++ [.notice code] ++ ts ∧
          (inp.tick = true → (tick u).events = u.events ++ ts)) ∧
    notices.length ≤ 1

/-! ### Who writes what -/

/-- R30: a command on channel `c` never writes another channel's registers, except the commands that name every channel. -/
def Obligations.OtherChannelsUntouched : Prop :=
  ∀ (i : Instr) (s t : State) (d : ChanId),
    (match i with
      | .startWave ch _ => ch ≠ d.number
      | .stopWave ch => ch ≠ 0 ∧ ch ≠ d.number
      | .setManual ch _ => ch ≠ d.number
      | .enterReg _ => False
      | .exitReg => False
      | .queryStatus => False) →
    exec i s = .next t → t.chan d = s.chan d

/-- 10_state.md sections 3 and 4 (the writers of each register): no command writes the operand registers or the update divider;
only ENTER_REG writes `reg_id`, only ENTER_REG and EXIT_REG `gmode`; of a channel's registers only START_WAVE, SET_MANUAL and
ENTER_REG write the mode and the relay, only these and STOP_WAVE the sinks, only SET_MANUAL `manual`, only QUERY_STATUS the
snapshots, only START_WAVE the waveform parameters and, among commands, the phase and the elapsed count; every command but
QUERY_STATUS may write the owner, as `OwnershipChanges` says, and every command writes `result`. Neither a command nor a tick
touches the model's own fields of the cycle (log entries 1, 3, 4 and 22). -/
def Obligations.CommandsWriteOnlyTheirRegisters : Prop :=
  (∀ (i : Instr) (s t : State), exec i s = .next t →
    CommandFrame s t ∧ t.rdata = s.rdata ∧ t.draws = s.draws ∧ t.inputs = s.inputs ∧ t.wasReset = s.wasReset ∧
    (i.opcode ≠ 4 → i.opcode ≠ 5 → t.gmode = s.gmode) ∧
    (i.opcode ≠ 4 → t.regId = s.regId) ∧
    (i.opcode = 6 → ∀ c, (t.chan c).owner = (s.chan c).owner) ∧
    (i.opcode ≠ 1 → i.opcode ≠ 3 → i.opcode ≠ 4 → ∀ c,
      (t.chan c).mode = (s.chan c).mode ∧ (t.chan c).relay = (s.chan c).relay) ∧
    (i.opcode = 5 ∨ i.opcode = 6 → ∀ c, (t.chan c).outV = (s.chan c).outV ∧ (t.chan c).outI = (s.chan c).outI) ∧
    (i.opcode ≠ 3 → ∀ c, (t.chan c).manual = (s.chan c).manual) ∧
    (i.opcode ≠ 6 → ∀ c, (t.chan c).snap = (s.chan c).snap) ∧
    (i.opcode ≠ 1 → ∀ c, (t.chan c).amp = (s.chan c).amp ∧ (t.chan c).period = (s.chan c).period ∧
      (t.chan c).center = (s.chan c).center ∧ (t.chan c).phase = (s.chan c).phase ∧
      (t.chan c).elapsed = (s.chan c).elapsed)) ∧
  ∀ s : State, (tick s).rdata = s.rdata ∧ (tick s).draws = s.draws ∧ (tick s).inputs = s.inputs ∧
    (tick s).wasReset = s.wasReset

/-- 41_output_arbiter.md section 1 (the changes of ownership that exist): a command leaves a channel's owner, or is START_WAVE
and gives it to WAVE, SET_MANUAL and gives it to MANUAL, STOP_WAVE and takes it from WAVE to NONE, ENTER_REG and gives it to REG,
or EXIT_REG and gives it to NONE, where the invariants hold from REG; a tick changes no owner. -/
def Obligations.OwnershipChanges : Prop :=
  (∀ (i : Instr) (s t : State) (c : ChanId), exec i s = .next t →
    (t.chan c).owner = (s.chan c).owner ∨
    (match i with
      | .startWave ch _ => ch = c.number ∧ (t.chan c).owner = .wave
      | .stopWave ch => (ch = 0 ∨ ch = c.number) ∧ (s.chan c).owner = .wave ∧ (t.chan c).owner = .none
      | .setManual ch _ => ch = c.number ∧ (t.chan c).owner = .manual
      | .enterReg _ => (t.chan c).owner = .reg
      | .exitReg => (t.chan c).owner = .none
      | .queryStatus => False)) ∧
  (∀ (s t : State) (c : ChanId), Invariants s → exec .exitReg s = .next t → t.result = 0 →
    (s.chan c).owner = .reg ∧ (t.chan c).owner = .none) ∧
  ∀ (s : State) (c : ChanId), ((tick s).chan c).owner = (s.chan c).owner

/-- 30_encoding.md section 2 (operand registers read): STOP_WAVE, ENTER_REG, EXIT_REG and QUERY_STATUS do the same whatever
the operand registers hold, and SET_MANUAL whatever `arg1` and `arg2` hold. -/
def Obligations.UnlistedOperandsAreIgnored : Prop :=
  ∀ (i : Instr) (s t : State) (a0 a1 a2 : Word), i.opcode ≠ 1 → (i.opcode = 3 → a0 = s.arg0) → exec i s = .next t →
    exec i { s with arg0 := a0, arg1 := a1, arg2 := a2 } = .next { t with arg0 := a0, arg1 := a1, arg2 := a2 }

/-- 41_output_arbiter.md section 2 (only two transitions exist): a step changes `gmode` only by a reset, by a command write of
ENTER_REG in ANALOG, or by one of EXIT_REG in REGISTER. -/
def Obligations.OnlyEnterAndExitChangeMode : Prop :=
  ∀ s t : State, s.specified → step s = .next t → t.gmode ≠ s.gmode →
    s.nextInput.rst = true ∨
    (∃ id, s.nextInput.command? = some (.enterReg id) ∧ 1 ≤ id ∧ id ≤ 247 ∧ s.gmode = .analog ∧ t.gmode = .register) ∨
    (s.nextInput.command? = some .exitReg ∧ s.gmode = .register ∧ t.gmode = .analog)

/-- R43: the sinks and relays after a step are those before it with the step's events applied in order; nothing but an event
changes an output, and no event is without its effect. -/
def Obligations.OutputsFollowTheEventList : Prop :=
  ∀ (s t : State) (c : ChanId), s.specified → step s = .next t →
    (t.chan c).outputs = t.events.foldl (Outputs.after c) (s.chan c).outputs

/-- R44: the ports after a step: a strobe is high exactly if the step wrote its sink, and every strobe is high in a reset cycle;
the relay lines follow the relay register; and the notice port carries the step's notice, of which there is at most one. -/
def Obligations.PortsFollowTheStep : Prop :=
  ∀ s t : State, s.specified → step s = .next t →
    (∀ c k, writeStrobe c k t = true ↔ ∃ v, Event.sinkWrite c k v ∈ t.events) ∧
    (s.nextInput.rst = true → ∀ c k, writeStrobe c k t = true) ∧
    (∀ c, (rlyV c t = true ↔ (t.chan c).relay = 1) ∧ (rlyC c t = true ↔ (t.chan c).relay = 2)) ∧
    (noticeValid t = true ↔ ∃ code, Event.notice code ∈ t.events) ∧
    (∀ code, Event.notice code ∈ t.events → noticeCode t = some code.code) ∧
    (t.events.filter Event.isNotice).length ≤ 1

/-! ### The tick and the waveform engine -/

/-- R112: TICK, whole: the counters of the active channels advance, every inactive channel is unchanged, the divider counts to
250, and when it expires in ANALOG the samples of the new phases are written in channel order; `result`, the other global
registers and the notices are untouched. It is the step taken when `ms_tick` is high: a cycle of a reset block with a tick, no bus
write and no reset is TICK on the state at its beginning (whatever word `bus_rdata` holds). -/
def Obligations.TickEffect : Prop :=
  (∀ s : State,
    let moved := fun c : ChanId =>
      { s.chan c with
        elapsed := (s.chan c).elapsed + 1,
        phase := if (s.chan c).phase.toNat + 1 = (s.chan c).period.toNat then 0 else (s.chan c).phase + 1 }
    let event := s.updCnt.toNat = 249 ∧ s.gmode = .analog
    (∀ c, (s.chan c).owner ≠ .wave → (tick s).chan c = s.chan c) ∧
    (∀ c, (s.chan c).owner = .wave → ¬ event → (tick s).chan c = moved c) ∧
    (∀ c, (s.chan c).owner = .wave → event →
      (tick s).chan c =
        { moved c with
          outV := if (s.chan c).mode = .v then sample (moved c) else (s.chan c).outV,
          outI := if (s.chan c).mode = .c then sample (moved c) else (s.chan c).outI }) ∧
    (event → (tick s).events = s.events ++
      ([ChanId.c1, ChanId.c2, ChanId.c3].filter fun c => decide ((s.chan c).owner = .wave)).map fun c =>
        Event.sinkWrite c (if (s.chan c).mode = .v then .v else .i) (sample (moved c))) ∧
    (¬ event → (tick s).events = s.events) ∧
    (tick s).updCnt = (if s.updCnt.toNat = 249 then 0 else s.updCnt + 1) ∧
    (tick s).gmode = s.gmode ∧ (tick s).regId = s.regId ∧ (tick s).result = s.result ∧ (tick s).arg0 = s.arg0 ∧
    (tick s).arg1 = s.arg1 ∧ (tick s).arg2 = s.arg2) ∧
  (∀ s : State, s.wasReset = true → s.nextInput.rst = false → s.nextInput.we = false → s.nextInput.tick = true →
    ∃ w : Word, step s = .next (tick { s.beginCycle with rdata := w })) ∧
  ∀ (s : State) (n : Nat), s.updCnt.toNat ≤ 249 → (ticks n s).updCnt.toNat = (s.updCnt.toNat + n) % 250

/-- R101: on a tick an active channel's phase advances by one, or to 0 when that reaches the period, and any other channel's
phase is kept. (The rule's own inference, `phase = n mod period`, is in `WaveformIsExactlyPeriodic`.) -/
def Obligations.PhaseAdvancesOnTick : Prop :=
  (∀ (s : State) (c : ChanId), (s.chan c).owner ≠ .wave → ((tick s).chan c).phase = (s.chan c).phase) ∧
  ∀ (s : State) (c : ChanId), (s.chan c).owner = .wave → (s.chan c).phase.toNat < (s.chan c).period.toNat →
    ((tick s).chan c).phase.toNat =
      if (s.chan c).phase.toNat + 1 = (s.chan c).period.toNat then 0 else (s.chan c).phase.toNat + 1

/-- R102: an active channel's `elapsed` counts ticks modulo 2^32, any other channel keeps it, and it never feeds the sample. -/
def Obligations.ElapsedCountsTicks : Prop :=
  (∀ (s : State) (c : ChanId) (n : Nat), (s.chan c).owner = .wave →
    ((ticks n s).chan c).elapsed.toNat = ((s.chan c).elapsed.toNat + n) % 2 ^ 32) ∧
  (∀ (s : State) (c : ChanId) (n : Nat), (s.chan c).owner ≠ .wave →
    ((ticks n s).chan c).elapsed = (s.chan c).elapsed) ∧
  ∀ (ch : Channel) (e : BitVec 32), sample { ch with elapsed := e } = sample ch

/-- R103: within the period the angle is `floor(phase · 1024 / period)`, below 1024, and the product is below 2^26. -/
def Obligations.AngleQuantisesThePhase : Prop :=
  ∀ ch : Channel, ch.phase.toNat < ch.period.toNat →
    (angle ch).toNat = ch.phase.toNat * 1024 / ch.period.toNat ∧ ch.phase.toNat * 1024 / ch.period.toNat ≤ 1023 ∧
    ch.phase.toNat * 1024 < 2 ^ 26

/-- R104: the quarter-wave folding of the table, and its range. (The exact values at the quadrant points, the rule's own
inference, are in `TableAndQuadrantValues`.) -/
def Obligations.SineFoldsTheQuarterWave : Prop :=
  (∀ a : BitVec 10,
    let i := (a.extractLsb' 0 8).toNat
    sinq a =
      (if a.extractLsb' 8 2 = 0 then (lut i : Int)
      else if a.extractLsb' 8 2 = 1 then (lut (256 - i) : Int)
      else if a.extractLsb' 8 2 = 2 then -(lut i : Int)
      else -(lut (256 - i) : Int))) ∧
  ∀ a : BitVec 10, -32768 ≤ sinq a ∧ sinq a ≤ 32768

/-- 40_waveform_engine.md section 2: the table has 257 entries and rises strictly; the sine is exact at the quadrant points, and
at the spot values of 95_test_vectors.md section 2 (V1). -/
def Obligations.TableAndQuadrantValues : Prop :=
  lutTable.length = 257 ∧ (∀ i, i < 256 → lut i < lut (i + 1)) ∧
  sinq 0 = 0 ∧ sinq 256 = 32768 ∧ sinq 512 = 0 ∧ sinq 768 = -32768 ∧
  sinq 1 = 201 ∧ sinq 128 = 23170 ∧ sinq 255 = 32767 ∧ sinq 640 = -23170 ∧ sinq 1023 = -201

/-- R105: every entry of the table is the rounded sine of its angle, no entry lies within 0.0036 of a rounding tie, the ends
are exact, and the table rises strictly. -/
def Obligations.TableIsTheRoundedSine : Prop :=
  lutTable.length = 257 ∧
  (∀ i : Nat, i ≤ 256 → (lut i : Int) = ⌊32768 * Real.sin (Real.pi * i / 512) + 1 / 2⌋) ∧
  (∀ i : Nat, i ≤ 256 → ∀ k : Int, 0.0036 < |32768 * Real.sin (Real.pi * i / 512) - (k + 1 / 2)|) ∧
  (∀ i : Nat, lut i < 2 ^ 16) ∧ lut 0 = 0 ∧ lut 256 = 32768 ∧ ∀ i j : Nat, i < j → j ≤ 256 → lut i < lut j

/-- 40_waveform_engine.md section 3, property (d): before clamping, the computed waveform stays within the stated bound of the
ideal sine wave. -/
def Obligations.RawApproximatesTheIdealSine : Prop :=
  ∀ ch : Channel, ch.phase.toNat < ch.period.toNat →
    |((raw ch : Int) : ℝ) -
        (ch.center.toInt + ch.amp.toNat * Real.sin (2 * Real.pi * ch.phase.toNat / ch.period.toNat))| <
      ch.amp.toNat * (2 * Real.pi / 1024 + 1 / 2 ^ 16) + 1

/-- R107: the product and its floor shift by 15 are exact in ℤ and no intermediate wraps; the two worked products floor to 707
and −708. -/
def Obligations.ScalingIsExact : Prop :=
  (∀ ch : Channel,
    prod ch = (ch.amp.toNat : Int) * sinq (angle ch) ∧ |prod ch| ≤ (2 ^ 31 - 1) * 2 ^ 15 ∧ |prod ch| < 2 ^ 46 ∧
    scaled ch * 32768 ≤ prod ch ∧ prod ch < (scaled ch + 1) * 32768 ∧
    raw ch = ch.center.toInt + scaled ch ∧ |raw ch| < 2 ^ 32 + 2 ^ 31) ∧
  asr (1000 * 23170) 15 = 707 ∧ asr (1000 * -23170) 15 = -708

/-- R108: the sample is the raw value clamped to the full scale of the mode, and its 16-bit pattern holds it exactly. -/
def Obligations.SampleIsClamped : Prop :=
  ∀ ch : Channel,
    let full : Int := if ch.mode = .v then 10000 else 25000
    ((sample ch).toNat : Int) = min (max (raw ch) 0) full ∧ (sample ch).toNat ≤ 25000

/-- 40_waveform_engine.md section 4 (update only in Analog) with 10_state.md section 6, (a): in REGISTER a tick emits nothing and
leaves every sink and relay; and by invariant (a) no channel is active then. -/
def Obligations.UpdateOnlyInAnalog : Prop :=
  (∀ s : State, s.gmode = .register →
    (tick s).events = s.events ∧ ∀ c, ((tick s).chan c).outputs = (s.chan c).outputs) ∧
  ∀ s : State, Invariants s → s.gmode = .register → ∀ c, (s.chan c).active = false

/-- 40_waveform_engine.md section 1 (`phase[c] = n mod period[c]`, marked as derived) and section 3, property (a): `n` ticks after
a start the phase is `n mod p`, where `p` is the period; and for an active channel within its period, in any state, the phase and
the sample after `n + p` ticks are those after `n` ticks. -/
def Obligations.WaveformIsExactlyPeriodic : Prop :=
  (∀ (s : State) (c : ChanId) (n : Nat), (s.chan c).owner = .wave → (s.chan c).phase = 0 →
    0 < (s.chan c).period.toNat → ((ticks n s).chan c).phase.toNat = n % (s.chan c).period.toNat) ∧
  ∀ (s : State) (c : ChanId) (n : Nat), (s.chan c).active = true →
    (s.chan c).phase.toNat < (s.chan c).period.toNat →
    sample ((ticks (n + (s.chan c).period.toNat) s).chan c) = sample ((ticks n s).chan c) ∧
    ((ticks (n + (s.chan c).period.toNat) s).chan c).phase = ((ticks n s).chan c).phase

/-- 40_waveform_engine.md section 3, properties (b) and (c): the sample at phase 0 is the clamped center; and when 4 divides the
period, the sample a quarter period after a start is the clamped sum of center and amplitude, exactly. -/
def Obligations.StartAndQuarterPeriodSamples : Prop :=
  ∀ (s : State) (c : ChanId), (s.chan c).active = true → (s.chan c).phase = 0 → 0 < (s.chan c).period.toNat →
    let full : Int := if (s.chan c).mode = .v then 10000 else 25000
    ((sample (s.chan c)).toNat : Int) = min (max (s.chan c).center.toInt 0) full ∧
    ((s.chan c).period.toNat % 4 = 0 →
      ((sample ((ticks ((s.chan c).period.toNat / 4) s).chan c)).toNat : Int) =
        min (max ((s.chan c).center.toInt + (s.chan c).amp.toNat) 0) full)

/-! ### Invariants and the safe state -/

/-- 10_state.md section 6: the invariants hold right after reset, whatever inputs are to come. -/
def Obligations.InvariantsHoldAtReset : Prop :=
  ∀ inputs : List CycleIn, Invariants { State.reset with inputs := inputs }

/-- 10_state.md section 6: every step, on any inputs, keeps the invariants (a) to (i). -/
def Obligations.EveryStepKeepsInvariants : Prop :=
  ∀ s t : State, Invariants s → step s = .next t → Invariants t

/-- 10_state.md section 6: the invariants hold in every state reachable from a reset, the first one after power-up among them. -/
def Obligations.ReachableStatesMeetInvariants : Prop :=
  ∀ s : State, Reachable s → Invariants s

/-- 60_exceptions.md section 1 (codes 10 to 15 are never produced), 10_state.md section 3 (`reg_id`): the legal codes hold at
reset and every step keeps them. -/
def Obligations.EveryStepKeepsLegalCodes : Prop :=
  LegalCodes State.reset ∧ ∀ s t : State, s.specified → LegalCodes s → step s = .next t → LegalCodes t

/-- 10_state.md section 6, invariant (j): a step that begins in REGISTER and is no reset emits no sink write and no relay event,
and leaves every sink and relay. -/
def Obligations.RegisterModeWritesNoOutput : Prop :=
  ∀ s t : State, s.wasReset = true → s.gmode = .register → s.nextInput.rst = false → step s = .next t →
    OutputSilent t.events ∧ ∀ c, (t.chan c).outputs = (s.chan c).outputs

/-- 41_output_arbiter.md section 5, the safe-state property: an accepted ENTER_REG leaves the safe state; and from the safe state
every step that is no reset, and runs no START_WAVE or SET_MANUAL that is accepted, keeps it and, unless it is an accepted
ENTER_REG, emits nothing but notices. (A START_WAVE or SET_MANUAL in REGISTER is rejected.) -/
def Obligations.SafeStateHoldsUntilDriven : Prop :=
  (∀ (id : Nat) (s : State), s.gmode = .analog → 1 ≤ id → id ≤ 247 →
    ∃ t, exec (.enterReg id) s = .next t ∧ t.gmode = .register ∧ SafeState t) ∧
  ∀ s t : State, s.wasReset = true → SafeState s → s.nextInput.rst = false → step s = .next t →
    (∀ i, s.nextInput.command? = some i → i.drives = true →
      s.gmode = .register ∨ t.result ≠ 0 ∧ t.result ≠ 1) →
    SafeState t ∧
    ((∀ id, s.nextInput.command? = some (.enterReg id) → s.gmode = .register ∨ t.result ≠ 0) → OutputSilent t.events)

/-! ### Before the first reset -/

/-- 70_reset_and_hazards.md section 1 (before the first reset), in the model's form of it (log entry 22): a powered-up block has
seen no reset; a reset cycle is what changes that, and nothing undoes it; until then a cycle that is no reset leaves a state, and the
ports have values, that nothing the block held and nothing the cycle's inputs asked for can show in. -/
def Obligations.UnspecifiedUntilFirstReset : Prop :=
  (∀ inputs : List CycleIn, (State.powerUp inputs).wasReset = false) ∧
  (∀ s t : State, step s = .next t → t.wasReset = (s.wasReset || s.nextInput.rst)) ∧
  (∀ s s' : State, s.wasReset = false → s'.wasReset = false → s.nextInput.rst = false → s'.nextInput.rst = false →
    s.draws = s'.draws → s.inputs.tail = s'.inputs.tail → step s = step s') ∧
  ∀ s s' : State, s.wasReset = false → s'.wasReset = false → s.draws = s'.draws →
    (∀ c k, writeStrobe c k s = writeStrobe c k s') ∧ (∀ c, rlyV c s = rlyV c s' ∧ rlyC c s = rlyC c s') ∧
    noticeValid s = noticeValid s' ∧ noticeCode s = noticeCode s'
end

