-- ==== Sys2Proof/Laws/State.lean ====
section
/-! SUPPORT. The small lemmas of the state's accessors and updates: one per field per update, so that no later proof unfolds
a record update. -/

namespace Sys2Proof.Machine

/-! ### Reading a channel after an update -/

@[simp] theorem State.chan_modChan_same (s : State) (c : ChanId) (f : Channel → Channel) :
    (s.modChan c f).chan c = f (s.chan c) := by cases c <;> rfl

theorem State.chan_modChan_ne (s : State) {c d : ChanId} (f : Channel → Channel) (h : d ≠ c) :
    (s.modChan c f).chan d = s.chan d := by cases c <;> cases d <;> first | rfl | exact absurd rfl h

theorem State.chan_modChan (s : State) (c d : ChanId) (f : Channel → Channel) :
    (s.modChan c f).chan d = if d = c then f (s.chan c) else s.chan d := by
  by_cases h : d = c
  · subst h; simp
  · simp [h, State.chan_modChan_ne s f h]

@[simp] theorem State.chan_mapChans (s : State) (c : ChanId) (f : Channel → Channel) :
    (s.mapChans f).chan c = f (s.chan c) := by cases c <;> rfl

@[simp] theorem emit_chan (e : Event) (s : State) (c : ChanId) : (emit e s).chan c = s.chan c := by cases c <;> rfl

@[simp] theorem State.chan_c1 (s : State) : s.chan .c1 = s.ch1 := rfl
@[simp] theorem State.chan_c2 (s : State) : s.chan .c2 = s.ch2 := rfl
@[simp] theorem State.chan_c3 (s : State) : s.chan .c3 = s.ch3 := rfl

/-- Two states are equal when their registers outside the channels, their channels, and the model's own fields are. -/
theorem State.ext_chan {s t : State} (hg : s.gmode = t.gmode) (hr : s.regId = t.regId) (hu : s.updCnt = t.updCnt)
    (hres : s.result = t.result) (h0 : s.arg0 = t.arg0) (h1 : s.arg1 = t.arg1) (h2 : s.arg2 = t.arg2)
    (hc : ∀ c, s.chan c = t.chan c) (he : s.events = t.events) (hd : s.rdata = t.rdata) (hn : s.draws = t.draws)
    (hi : s.inputs = t.inputs) (hw : s.wasReset = t.wasReset) : s = t := by
  have c1 := hc .c1; have c2 := hc .c2; have c3 := hc .c3
  cases s; cases t
  simp only [State.chan] at *
  simp_all

/-! ### `modChan` changes no register outside the channel -/

@[simp] theorem State.modChan_gmode (s : State) (c : ChanId) (f : Channel → Channel) : (s.modChan c f).gmode = s.gmode := by cases c <;> rfl
@[simp] theorem State.modChan_regId (s : State) (c : ChanId) (f : Channel → Channel) : (s.modChan c f).regId = s.regId := by cases c <;> rfl
@[simp] theorem State.modChan_updCnt (s : State) (c : ChanId) (f : Channel → Channel) : (s.modChan c f).updCnt = s.updCnt := by cases c <;> rfl
@[simp] theorem State.modChan_result (s : State) (c : ChanId) (f : Channel → Channel) : (s.modChan c f).result = s.result := by cases c <;> rfl
@[simp] theorem State.modChan_arg0 (s : State) (c : ChanId) (f : Channel → Channel) : (s.modChan c f).arg0 = s.arg0 := by cases c <;> rfl
@[simp] theorem State.modChan_arg1 (s : State) (c : ChanId) (f : Channel → Channel) : (s.modChan c f).arg1 = s.arg1 := by cases c <;> rfl
@[simp] theorem State.modChan_arg2 (s : State) (c : ChanId) (f : Channel → Channel) : (s.modChan c f).arg2 = s.arg2 := by cases c <;> rfl
@[simp] theorem State.modChan_rdata (s : State) (c : ChanId) (f : Channel → Channel) : (s.modChan c f).rdata = s.rdata := by cases c <;> rfl
@[simp] theorem State.modChan_draws (s : State) (c : ChanId) (f : Channel → Channel) : (s.modChan c f).draws = s.draws := by cases c <;> rfl
@[simp] theorem State.modChan_wasReset (s : State) (c : ChanId) (f : Channel → Channel) : (s.modChan c f).wasReset = s.wasReset := by cases c <;> rfl
@[simp] theorem State.modChan_inputs (s : State) (c : ChanId) (f : Channel → Channel) : (s.modChan c f).inputs = s.inputs := by cases c <;> rfl
@[simp] theorem State.modChan_events (s : State) (c : ChanId) (f : Channel → Channel) : (s.modChan c f).events = s.events := by cases c <;> rfl

/-! ### `mapChans` -/

@[simp] theorem State.mapChans_gmode (s : State) (f : Channel → Channel) : (s.mapChans f).gmode = s.gmode := rfl
@[simp] theorem State.mapChans_regId (s : State) (f : Channel → Channel) : (s.mapChans f).regId = s.regId := rfl
@[simp] theorem State.mapChans_updCnt (s : State) (f : Channel → Channel) : (s.mapChans f).updCnt = s.updCnt := rfl
@[simp] theorem State.mapChans_result (s : State) (f : Channel → Channel) : (s.mapChans f).result = s.result := rfl
@[simp] theorem State.mapChans_arg0 (s : State) (f : Channel → Channel) : (s.mapChans f).arg0 = s.arg0 := rfl
@[simp] theorem State.mapChans_arg1 (s : State) (f : Channel → Channel) : (s.mapChans f).arg1 = s.arg1 := rfl
@[simp] theorem State.mapChans_arg2 (s : State) (f : Channel → Channel) : (s.mapChans f).arg2 = s.arg2 := rfl
@[simp] theorem State.mapChans_rdata (s : State) (f : Channel → Channel) : (s.mapChans f).rdata = s.rdata := rfl
@[simp] theorem State.mapChans_draws (s : State) (f : Channel → Channel) : (s.mapChans f).draws = s.draws := rfl
@[simp] theorem State.mapChans_wasReset (s : State) (f : Channel → Channel) : (s.mapChans f).wasReset = s.wasReset := rfl
@[simp] theorem State.mapChans_inputs (s : State) (f : Channel → Channel) : (s.mapChans f).inputs = s.inputs := rfl
@[simp] theorem State.mapChans_events (s : State) (f : Channel → Channel) : (s.mapChans f).events = s.events := rfl

/-! ### `emit` -/

@[simp] theorem emit_gmode (e : Event) (s : State) : (emit e s).gmode = s.gmode := rfl
@[simp] theorem emit_regId (e : Event) (s : State) : (emit e s).regId = s.regId := rfl
@[simp] theorem emit_updCnt (e : Event) (s : State) : (emit e s).updCnt = s.updCnt := rfl
@[simp] theorem emit_result (e : Event) (s : State) : (emit e s).result = s.result := rfl
@[simp] theorem emit_arg0 (e : Event) (s : State) : (emit e s).arg0 = s.arg0 := rfl
@[simp] theorem emit_arg1 (e : Event) (s : State) : (emit e s).arg1 = s.arg1 := rfl
@[simp] theorem emit_arg2 (e : Event) (s : State) : (emit e s).arg2 = s.arg2 := rfl
@[simp] theorem emit_rdata (e : Event) (s : State) : (emit e s).rdata = s.rdata := rfl
@[simp] theorem emit_draws (e : Event) (s : State) : (emit e s).draws = s.draws := rfl
@[simp] theorem emit_wasReset (e : Event) (s : State) : (emit e s).wasReset = s.wasReset := rfl
@[simp] theorem emit_inputs (e : Event) (s : State) : (emit e s).inputs = s.inputs := rfl
@[simp] theorem emit_events (e : Event) (s : State) : (emit e s).events = s.events ++ [e] := rfl

/-! ### `beginCycle` -/

@[simp] theorem State.beginCycle_gmode (s : State) : s.beginCycle.gmode = s.gmode := rfl
@[simp] theorem State.beginCycle_regId (s : State) : s.beginCycle.regId = s.regId := rfl
@[simp] theorem State.beginCycle_updCnt (s : State) : s.beginCycle.updCnt = s.updCnt := rfl
@[simp] theorem State.beginCycle_result (s : State) : s.beginCycle.result = s.result := rfl
@[simp] theorem State.beginCycle_arg0 (s : State) : s.beginCycle.arg0 = s.arg0 := rfl
@[simp] theorem State.beginCycle_arg1 (s : State) : s.beginCycle.arg1 = s.arg1 := rfl
@[simp] theorem State.beginCycle_arg2 (s : State) : s.beginCycle.arg2 = s.arg2 := rfl
@[simp] theorem State.beginCycle_chan (s : State) (c : ChanId) : s.beginCycle.chan c = s.chan c := by cases c <;> rfl
@[simp] theorem State.beginCycle_events (s : State) : s.beginCycle.events = [] := rfl
@[simp] theorem State.beginCycle_rdata (s : State) : s.beginCycle.rdata = Config.freeRdata s.draws := rfl
@[simp] theorem State.beginCycle_draws (s : State) : s.beginCycle.draws = s.draws + 1 := rfl
@[simp] theorem State.beginCycle_wasReset (s : State) : s.beginCycle.wasReset = s.wasReset := rfl
@[simp] theorem State.beginCycle_inputs (s : State) : s.beginCycle.inputs = s.inputs.tail := rfl

/-! ### `Channel.setSink` -/

@[simp] theorem Channel.setSink_owner (k : SinkKind) (v : BitVec 16) (ch : Channel) : (ch.setSink k v).owner = ch.owner := by cases k <;> rfl
@[simp] theorem Channel.setSink_mode (k : SinkKind) (v : BitVec 16) (ch : Channel) : (ch.setSink k v).mode = ch.mode := by cases k <;> rfl
@[simp] theorem Channel.setSink_relay (k : SinkKind) (v : BitVec 16) (ch : Channel) : (ch.setSink k v).relay = ch.relay := by cases k <;> rfl
@[simp] theorem Channel.setSink_amp (k : SinkKind) (v : BitVec 16) (ch : Channel) : (ch.setSink k v).amp = ch.amp := by cases k <;> rfl
@[simp] theorem Channel.setSink_period (k : SinkKind) (v : BitVec 16) (ch : Channel) : (ch.setSink k v).period = ch.period := by cases k <;> rfl
@[simp] theorem Channel.setSink_center (k : SinkKind) (v : BitVec 16) (ch : Channel) : (ch.setSink k v).center = ch.center := by cases k <;> rfl
@[simp] theorem Channel.setSink_phase (k : SinkKind) (v : BitVec 16) (ch : Channel) : (ch.setSink k v).phase = ch.phase := by cases k <;> rfl
@[simp] theorem Channel.setSink_elapsed (k : SinkKind) (v : BitVec 16) (ch : Channel) : (ch.setSink k v).elapsed = ch.elapsed := by cases k <;> rfl
@[simp] theorem Channel.setSink_manual (k : SinkKind) (v : BitVec 16) (ch : Channel) : (ch.setSink k v).manual = ch.manual := by cases k <;> rfl
@[simp] theorem Channel.setSink_snap (k : SinkKind) (v : BitVec 16) (ch : Channel) : (ch.setSink k v).snap = ch.snap := by cases k <;> rfl
@[simp] theorem Channel.setSink_active (k : SinkKind) (v : BitVec 16) (ch : Channel) : (ch.setSink k v).active = ch.active := by cases k <;> rfl
@[simp] theorem Channel.setSink_v_outV (v : BitVec 16) (ch : Channel) : (ch.setSink .v v).outV = v := rfl
@[simp] theorem Channel.setSink_v_outI (v : BitVec 16) (ch : Channel) : (ch.setSink .v v).outI = ch.outI := rfl
@[simp] theorem Channel.setSink_i_outV (v : BitVec 16) (ch : Channel) : (ch.setSink .i v).outV = ch.outV := rfl
@[simp] theorem Channel.setSink_i_outI (v : BitVec 16) (ch : Channel) : (ch.setSink .i v).outI = v := rfl

theorem Channel.active_iff (ch : Channel) : ch.active = true ↔ ch.owner = .wave := by simp [Channel.active]

end Sys2Proof.Machine
end

