-- ==== Sys2Proof/Laws/Ops.lean ====
section
/-! SUPPORT. One lemma per shared operation of Machine/Ops.lean and Machine/Dds.lean that says what it does to each register,
for the provers to cite instead of unfolding it. -/

namespace Sys2Proof.Machine

/-! ### `emitSink` and `emitRelay` -/

@[simp] theorem emitSink_gmode (c : ChanId) (k : SinkKind) (v : BitVec 16) (s : State) : 
    (emitSink c k v s).gmode = s.gmode := by simp [emitSink]
@[simp] theorem emitSink_regId (c : ChanId) (k : SinkKind) (v : BitVec 16) (s : State) : 
    (emitSink c k v s).regId = s.regId := by simp [emitSink]
@[simp] theorem emitSink_updCnt (c : ChanId) (k : SinkKind) (v : BitVec 16) (s : State) : 
    (emitSink c k v s).updCnt = s.updCnt := by simp [emitSink]
@[simp] theorem emitSink_result (c : ChanId) (k : SinkKind) (v : BitVec 16) (s : State) : 
    (emitSink c k v s).result = s.result := by simp [emitSink]
@[simp] theorem emitSink_arg0 (c : ChanId) (k : SinkKind) (v : BitVec 16) (s : State) : 
    (emitSink c k v s).arg0 = s.arg0 := by simp [emitSink]
@[simp] theorem emitSink_arg1 (c : ChanId) (k : SinkKind) (v : BitVec 16) (s : State) : 
    (emitSink c k v s).arg1 = s.arg1 := by simp [emitSink]
@[simp] theorem emitSink_arg2 (c : ChanId) (k : SinkKind) (v : BitVec 16) (s : State) : 
    (emitSink c k v s).arg2 = s.arg2 := by simp [emitSink]
@[simp] theorem emitSink_rdata (c : ChanId) (k : SinkKind) (v : BitVec 16) (s : State) : 
    (emitSink c k v s).rdata = s.rdata := by simp [emitSink]
@[simp] theorem emitSink_draws (c : ChanId) (k : SinkKind) (v : BitVec 16) (s : State) : 
    (emitSink c k v s).draws = s.draws := by simp [emitSink]
@[simp] theorem emitSink_wasReset (c : ChanId) (k : SinkKind) (v : BitVec 16) (s : State) : 
    (emitSink c k v s).wasReset = s.wasReset := by simp [emitSink]
@[simp] theorem emitSink_inputs (c : ChanId) (k : SinkKind) (v : BitVec 16) (s : State) : 
    (emitSink c k v s).inputs = s.inputs := by simp [emitSink]
@[simp] theorem emitSink_events (c : ChanId) (k : SinkKind) (v : BitVec 16) (s : State) :
    (emitSink c k v s).events = s.events ++ [.sinkWrite c k v] := by simp [emitSink]

@[simp] theorem emitSink_chan_same (c : ChanId) (k : SinkKind) (v : BitVec 16) (s : State) :
    (emitSink c k v s).chan c = (s.chan c).setSink k v := by simp [emitSink]

theorem emitSink_chan (c d : ChanId) (k : SinkKind) (v : BitVec 16) (s : State) :
    (emitSink c k v s).chan d = if d = c then (s.chan c).setSink k v else s.chan d := by
  simp [emitSink, State.chan_modChan]

@[simp] theorem emitRelay_gmode (c : ChanId) (p : RelayPos) (s : State) : (emitRelay c p s).gmode = s.gmode := by simp [emitRelay]
@[simp] theorem emitRelay_regId (c : ChanId) (p : RelayPos) (s : State) : (emitRelay c p s).regId = s.regId := by simp [emitRelay]
@[simp] theorem emitRelay_updCnt (c : ChanId) (p : RelayPos) (s : State) : (emitRelay c p s).updCnt = s.updCnt := by simp [emitRelay]
@[simp] theorem emitRelay_result (c : ChanId) (p : RelayPos) (s : State) : (emitRelay c p s).result = s.result := by simp [emitRelay]
@[simp] theorem emitRelay_arg0 (c : ChanId) (p : RelayPos) (s : State) : (emitRelay c p s).arg0 = s.arg0 := by simp [emitRelay]
@[simp] theorem emitRelay_arg1 (c : ChanId) (p : RelayPos) (s : State) : (emitRelay c p s).arg1 = s.arg1 := by simp [emitRelay]
@[simp] theorem emitRelay_arg2 (c : ChanId) (p : RelayPos) (s : State) : (emitRelay c p s).arg2 = s.arg2 := by simp [emitRelay]
@[simp] theorem emitRelay_rdata (c : ChanId) (p : RelayPos) (s : State) : (emitRelay c p s).rdata = s.rdata := by simp [emitRelay]
@[simp] theorem emitRelay_draws (c : ChanId) (p : RelayPos) (s : State) : (emitRelay c p s).draws = s.draws := by simp [emitRelay]
@[simp] theorem emitRelay_wasReset (c : ChanId) (p : RelayPos) (s : State) : (emitRelay c p s).wasReset = s.wasReset := by simp [emitRelay]
@[simp] theorem emitRelay_inputs (c : ChanId) (p : RelayPos) (s : State) : (emitRelay c p s).inputs = s.inputs := by simp [emitRelay]
@[simp] theorem emitRelay_events (c : ChanId) (p : RelayPos) (s : State) :
    (emitRelay c p s).events = s.events ++ [.relaySet c p] := by simp [emitRelay]

@[simp] theorem emitRelay_chan_same (c : ChanId) (p : RelayPos) (s : State) :
    (emitRelay c p s).chan c = { s.chan c with relay := p.code } := by simp [emitRelay]

theorem emitRelay_chan (c d : ChanId) (p : RelayPos) (s : State) :
    (emitRelay c p s).chan d = if d = c then { s.chan c with relay := p.code } else s.chan d := by
  simp [emitRelay, State.chan_modChan]

/-! ### `reject` and `accept` -/

/-- A rejection writes `result` and appends its notice; that is all it does (R211). -/
theorem reject_eq (code : ResultCode) (s : State) :
    reject code s = { s with result := code.code, events := s.events ++ [.notice code] } := rfl

/-- An acceptance writes `result`, and appends a notice unless the code is OK (R213). -/
theorem accept_eq (code : ResultCode) (s : State) :
    accept code s =
      { s with result := code.code, events := s.events ++ if code = .ok then [] else [.notice code] } := by
  unfold accept; split <;> simp_all [emit]

theorem accept_ok (s : State) : accept .ok s = { s with result := 0 } := rfl

@[simp] theorem reject_gmode (code : ResultCode) (s : State) : (reject code s).gmode = s.gmode := rfl
@[simp] theorem accept_gmode (code : ResultCode) (s : State) : (accept code s).gmode = s.gmode := by rw [accept_eq]
@[simp] theorem reject_regId (code : ResultCode) (s : State) : (reject code s).regId = s.regId := rfl
@[simp] theorem accept_regId (code : ResultCode) (s : State) : (accept code s).regId = s.regId := by rw [accept_eq]
@[simp] theorem reject_updCnt (code : ResultCode) (s : State) : (reject code s).updCnt = s.updCnt := rfl
@[simp] theorem accept_updCnt (code : ResultCode) (s : State) : (accept code s).updCnt = s.updCnt := by rw [accept_eq]
@[simp] theorem reject_arg0 (code : ResultCode) (s : State) : (reject code s).arg0 = s.arg0 := rfl
@[simp] theorem accept_arg0 (code : ResultCode) (s : State) : (accept code s).arg0 = s.arg0 := by rw [accept_eq]
@[simp] theorem reject_arg1 (code : ResultCode) (s : State) : (reject code s).arg1 = s.arg1 := rfl
@[simp] theorem accept_arg1 (code : ResultCode) (s : State) : (accept code s).arg1 = s.arg1 := by rw [accept_eq]
@[simp] theorem reject_arg2 (code : ResultCode) (s : State) : (reject code s).arg2 = s.arg2 := rfl
@[simp] theorem accept_arg2 (code : ResultCode) (s : State) : (accept code s).arg2 = s.arg2 := by rw [accept_eq]
@[simp] theorem reject_rdata (code : ResultCode) (s : State) : (reject code s).rdata = s.rdata := rfl
@[simp] theorem accept_rdata (code : ResultCode) (s : State) : (accept code s).rdata = s.rdata := by rw [accept_eq]
@[simp] theorem reject_draws (code : ResultCode) (s : State) : (reject code s).draws = s.draws := rfl
@[simp] theorem reject_wasReset (code : ResultCode) (s : State) : (reject code s).wasReset = s.wasReset := rfl
@[simp] theorem accept_draws (code : ResultCode) (s : State) : (accept code s).draws = s.draws := by rw [accept_eq]
@[simp] theorem accept_wasReset (code : ResultCode) (s : State) : (accept code s).wasReset = s.wasReset := by rw [accept_eq]
@[simp] theorem reject_inputs (code : ResultCode) (s : State) : (reject code s).inputs = s.inputs := rfl
@[simp] theorem accept_inputs (code : ResultCode) (s : State) : (accept code s).inputs = s.inputs := by rw [accept_eq]
@[simp] theorem reject_result (code : ResultCode) (s : State) : (reject code s).result = code.code := rfl
@[simp] theorem accept_result (code : ResultCode) (s : State) : (accept code s).result = code.code := by rw [accept_eq]
@[simp] theorem reject_chan (code : ResultCode) (s : State) (c : ChanId) : (reject code s).chan c = s.chan c := by
  cases c <;> rfl
@[simp] theorem accept_chan (code : ResultCode) (s : State) (c : ChanId) : (accept code s).chan c = s.chan c := by
  rw [accept_eq]; cases c <;> rfl
@[simp] theorem reject_events (code : ResultCode) (s : State) :
    (reject code s).events = s.events ++ [.notice code] := rfl
@[simp] theorem accept_events (code : ResultCode) (s : State) :
    (accept code s).events = s.events ++ if code = .ok then [] else [.notice code] := by rw [accept_eq]

/-! ### `forChans` -/

/-- What `for c in 1, 2, 3: f(c)` does to a field that no iteration changes. -/
theorem forChans_field {α : Type} (g : State → α) (f : ChanId → State → State) (h : ∀ c s, g (f c s) = g s) (s : State) :
    g (forChans f s) = g s := by simp [forChans, h]

/-- What the loop does to channel `d` when iteration `c` changes channel `c` alone, by `u`. -/
theorem forChans_chan (f : ChanId → State → State) (u : Channel → Channel)
    (h : ∀ c d s, (f c s).chan d = if d = c then u (s.chan c) else s.chan d) (s : State) (d : ChanId) :
    (forChans f s).chan d = u (s.chan d) := by
  cases d <;> simp only [forChans, h] <;> simp

/-- The events of the loop, when iteration `c` appends events `es` of channel `c`'s registers and changes no other
channel: the lists come in channel order. -/
theorem forChans_events (f : ChanId → State → State) (u : Channel → Channel) (es : ChanId → Channel → List Event)
    (h : ∀ c d s, (f c s).chan d = if d = c then u (s.chan c) else s.chan d)
    (he : ∀ c s, (f c s).events = s.events ++ es c (s.chan c)) (s : State) :
    (forChans f s).events = s.events ++ (es .c1 s.ch1 ++ es .c2 s.ch2 ++ es .c3 s.ch3) := by
  simp only [forChans, he, h]
  simp [List.append_assoc]

/-! ### `stopOne` -/

/-- What stopping does to the registers of the channel: an active one loses its owner and the sink of its mode is zeroed
(R131). -/
def Channel.stopped (ch : Channel) : Channel :=
  if ch.active then Channel.setSink (sinkOf ch.mode) 0 { ch with owner := .none } else ch

/-- The event of stopping a channel: its zero write, if it was active (R131). -/
def stopEvents (c : ChanId) (ch : Channel) : List Event :=
  if ch.active then [.sinkWrite c (sinkOf ch.mode) 0] else []

/-- The registers of a stopped channel, written out. -/
theorem Channel.stopped_eq (ch : Channel) :
    ch.stopped =
      if ch.owner = .wave then
        { ch with
          owner := .none, outV := if ch.mode = .v then 0 else ch.outV, outI := if ch.mode = .c then 0 else ch.outI }
      else ch := by
  cases ch with | mk o m => cases o <;> cases m <;> rfl

theorem stopOne_chan (c d : ChanId) (s : State) :
    (stopOne c s).chan d = if d = c then (s.chan c).stopped else s.chan d := by
  unfold stopOne Channel.stopped
  split
  · simp only [emitSink_chan, State.chan_modChan]
    split <;> simp
  · split
    · next h => rw [h]
    · rfl

@[simp] theorem stopOne_events (c : ChanId) (s : State) :
    (stopOne c s).events = s.events ++ stopEvents c (s.chan c) := by
  unfold stopOne stopEvents; split <;> simp

@[simp] theorem stopOne_gmode (c : ChanId) (s : State) : (stopOne c s).gmode = s.gmode := by
  unfold stopOne; split <;> simp
@[simp] theorem stopOne_regId (c : ChanId) (s : State) : (stopOne c s).regId = s.regId := by
  unfold stopOne; split <;> simp
@[simp] theorem stopOne_updCnt (c : ChanId) (s : State) : (stopOne c s).updCnt = s.updCnt := by
  unfold stopOne; split <;> simp
@[simp] theorem stopOne_result (c : ChanId) (s : State) : (stopOne c s).result = s.result := by
  unfold stopOne; split <;> simp
@[simp] theorem stopOne_arg0 (c : ChanId) (s : State) : (stopOne c s).arg0 = s.arg0 := by
  unfold stopOne; split <;> simp
@[simp] theorem stopOne_arg1 (c : ChanId) (s : State) : (stopOne c s).arg1 = s.arg1 := by
  unfold stopOne; split <;> simp
@[simp] theorem stopOne_arg2 (c : ChanId) (s : State) : (stopOne c s).arg2 = s.arg2 := by
  unfold stopOne; split <;> simp
@[simp] theorem stopOne_rdata (c : ChanId) (s : State) : (stopOne c s).rdata = s.rdata := by
  unfold stopOne; split <;> simp
@[simp] theorem stopOne_draws (c : ChanId) (s : State) : (stopOne c s).draws = s.draws := by
  unfold stopOne; split <;> simp
@[simp] theorem stopOne_wasReset (c : ChanId) (s : State) : (stopOne c s).wasReset = s.wasReset := by
  unfold stopOne; split <;> simp
@[simp] theorem stopOne_inputs (c : ChanId) (s : State) : (stopOne c s).inputs = s.inputs := by
  unfold stopOne; split <;> simp

theorem stopAll_chan (s : State) (d : ChanId) : (forChans stopOne s).chan d = (s.chan d).stopped :=
  forChans_chan stopOne Channel.stopped stopOne_chan s d

theorem stopAll_events (s : State) :
    (forChans stopOne s).events =
      s.events ++ (stopEvents .c1 s.ch1 ++ stopEvents .c2 s.ch2 ++ stopEvents .c3 s.ch3) :=
  forChans_events stopOne Channel.stopped stopEvents stopOne_chan (by simp) s

@[simp] theorem stopAll_gmode (s : State) : (forChans stopOne s).gmode = s.gmode := forChans_field State.gmode stopOne (by simp) s
@[simp] theorem stopAll_regId (s : State) : (forChans stopOne s).regId = s.regId := forChans_field State.regId stopOne (by simp) s
@[simp] theorem stopAll_updCnt (s : State) : (forChans stopOne s).updCnt = s.updCnt := forChans_field State.updCnt stopOne (by simp) s
@[simp] theorem stopAll_result (s : State) : (forChans stopOne s).result = s.result := forChans_field State.result stopOne (by simp) s
@[simp] theorem stopAll_arg0 (s : State) : (forChans stopOne s).arg0 = s.arg0 := forChans_field State.arg0 stopOne (by simp) s
@[simp] theorem stopAll_arg1 (s : State) : (forChans stopOne s).arg1 = s.arg1 := forChans_field State.arg1 stopOne (by simp) s
@[simp] theorem stopAll_arg2 (s : State) : (forChans stopOne s).arg2 = s.arg2 := forChans_field State.arg2 stopOne (by simp) s
@[simp] theorem stopAll_rdata (s : State) : (forChans stopOne s).rdata = s.rdata := forChans_field State.rdata stopOne (by simp) s
@[simp] theorem stopAll_draws (s : State) : (forChans stopOne s).draws = s.draws := forChans_field State.draws stopOne (by simp) s
@[simp] theorem stopAll_wasReset (s : State) : (forChans stopOne s).wasReset = s.wasReset := forChans_field State.wasReset stopOne (by simp) s
@[simp] theorem stopAll_inputs (s : State) : (forChans stopOne s).inputs = s.inputs := forChans_field State.inputs stopOne (by simp) s

/-! ### `safeOutputs` -/

/-- The events of the zeroing, in the order of R161 and R241. -/
def safeEvents : List Event :=
  [.sinkWrite .c1 .v 0, .sinkWrite .c1 .i 0, .sinkWrite .c2 .v 0, .sinkWrite .c2 .i 0, .sinkWrite .c3 .v 0,
    .sinkWrite .c3 .i 0, .relaySet .c1 .off, .relaySet .c2 .off, .relaySet .c3 .off]

theorem safeOutputs_chan (s : State) (d : ChanId) :
    (safeOutputs s).chan d = { s.chan d with outV := 0, outI := 0, relay := 0 } := by
  cases d <;> simp only [safeOutputs, forChans, zeroChan, emitRelay_chan, emitSink_chan] <;> rfl

@[simp] theorem safeOutputs_events (s : State) : (safeOutputs s).events = s.events ++ safeEvents := by
  simp [safeOutputs, forChans, zeroChan, safeEvents]

@[simp] theorem safeOutputs_gmode (s : State) : (safeOutputs s).gmode = s.gmode := by
  simp [safeOutputs, forChans, zeroChan]
@[simp] theorem safeOutputs_regId (s : State) : (safeOutputs s).regId = s.regId := by
  simp [safeOutputs, forChans, zeroChan]
@[simp] theorem safeOutputs_updCnt (s : State) : (safeOutputs s).updCnt = s.updCnt := by
  simp [safeOutputs, forChans, zeroChan]
@[simp] theorem safeOutputs_result (s : State) : (safeOutputs s).result = s.result := by
  simp [safeOutputs, forChans, zeroChan]
@[simp] theorem safeOutputs_arg0 (s : State) : (safeOutputs s).arg0 = s.arg0 := by
  simp [safeOutputs, forChans, zeroChan]
@[simp] theorem safeOutputs_arg1 (s : State) : (safeOutputs s).arg1 = s.arg1 := by
  simp [safeOutputs, forChans, zeroChan]
@[simp] theorem safeOutputs_arg2 (s : State) : (safeOutputs s).arg2 = s.arg2 := by
  simp [safeOutputs, forChans, zeroChan]
@[simp] theorem safeOutputs_rdata (s : State) : (safeOutputs s).rdata = s.rdata := by
  simp [safeOutputs, forChans, zeroChan]
@[simp] theorem safeOutputs_draws (s : State) : (safeOutputs s).draws = s.draws := by
  simp [safeOutputs, forChans, zeroChan]
@[simp] theorem safeOutputs_wasReset (s : State) : (safeOutputs s).wasReset = s.wasReset := by
  simp [safeOutputs, forChans, zeroChan]
@[simp] theorem safeOutputs_inputs (s : State) : (safeOutputs s).inputs = s.inputs := by
  simp [safeOutputs, forChans, zeroChan]

/-! ### Reset -/

/-- The reset step leaves the reset state, but for the inputs still to come and the cycle's own free value and count; its
events are those of R241 after the ones the cycle held. -/
theorem resetCycle_eq (s : State) :
    resetCycle s =
      { State.reset with
        events := s.events ++ safeEvents, rdata := s.rdata, draws := s.draws, inputs := s.inputs } := by
  apply State.ext_chan <;>
    first | (simp [resetCycle]; done) | (intro c; simp only [resetCycle, safeOutputs_chan]; cases c <;> rfl)

end Sys2Proof.Machine
end

