-- ==== Sys2Proof/Laws/Dds.lean ====
section
/-! SUPPORT. The laws of the waveform engine's arithmetic: the bounds of the table, of the sine, of the sample; what the
functions of a channel depend on; the advance of the counters. -/

namespace Sys2Proof.Machine

/-! ### The table -/

theorem lutTable_le : ∀ x ∈ lutTable, x ≤ 32768 := by
  have h0 : lutFrom0.all (fun x => decide (x ≤ 32768)) = true := by decide
  have h1 : lutFrom64.all (fun x => decide (x ≤ 32768)) = true := by decide
  have h2 : lutFrom128.all (fun x => decide (x ≤ 32768)) = true := by decide
  have h3 : lutFrom192.all (fun x => decide (x ≤ 32768)) = true := by decide
  have h4 : lutFrom256.all (fun x => decide (x ≤ 32768)) = true := by decide
  have h : lutTable.all (fun x => decide (x ≤ 32768)) = true := by
    simp only [lutTable, List.all_append, h0, h1, h2, h3, h4, Bool.and_self]
  exact fun x hx => of_decide_eq_true (List.all_eq_true.mp h x hx)

theorem lut_le (i : Nat) : lut i ≤ 32768 := by
  unfold lut
  rw [List.getD_eq_getElem?_getD]
  cases h : lutTable[i]? with
  | none => simp
  | some x => exact lutTable_le x (List.mem_of_getElem? h)

@[simp] theorem lut_zero : lut 0 = 0 := rfl

/-! ### The sine -/

theorem sinq_bounds (a : BitVec Config.angleBits) : -32768 ≤ sinq a ∧ sinq a ≤ 32768 := by
  have h1 := lut_le (a.toNat % 256)
  have h2 := lut_le (Config.lutSize - 1 - a.toNat % 256)
  unfold sinq
  dsimp only
  split <;> constructor <;> omega

@[simp] theorem sinq_zero : sinq 0#10 = 0 := rfl
@[simp] theorem sinq_quarter : sinq 256#10 = 32768 := by decide

/-! ### The sample -/

theorem maxOf_eq (m : Mode) : maxOf m = if m = .v then 10000 else 25000 := by cases m <;> rfl

theorem clamp_bounds (x : Int) {hi : Int} (h : 0 ≤ hi) : 0 ≤ clamp x 0 hi ∧ clamp x 0 hi ≤ hi := by
  unfold clamp; constructor <;> omega

theorem sampleValue_bounds (ch : Channel) : 0 ≤ sampleValue ch ∧ sampleValue ch ≤ maxOf ch.mode :=
  clamp_bounds _ (by cases ch.mode <;> decide)

theorem maxOf_le (m : Mode) : maxOf m ≤ 25000 := by cases m <;> decide

theorem rangeWarning_iff (fullScale a center : Int) :
    rangeWarning fullScale a center = true ↔ fullScale < center + a ∨ center - a < 0 := by
  simp [rangeWarning]

/-- A number of 0 to 65535 survives in 16 bits. -/
theorem toNat_ofInt16 {x : Int} (h0 : 0 ≤ x) (h : x < 65536) : ((BitVec.ofInt 16 x).toNat : Int) = x := by
  simp only [BitVec.toNat_ofInt]; omega

theorem sample_toNat (ch : Channel) : ((sample ch).toNat : Int) = sampleValue ch := by
  have h := sampleValue_bounds ch
  have h' := maxOf_le ch.mode
  exact toNat_ofInt16 h.1 (by omega)

theorem sample_le (ch : Channel) : ((sample ch).toNat : Int) ≤ maxOf ch.mode := by
  rw [sample_toNat]; exact (sampleValue_bounds ch).2

/-! ### Ticks -/

/-- A tick is one millisecond (R8). -/
@[simp] theorem ticksOf_eq (ms : Nat) : ticksOf ms = ms := Nat.div_one ms

/-! ### What the angle and the sample depend on -/

theorem angle_congr {a b : Channel} (hp : a.phase = b.phase) (hq : a.period = b.period) : angle a = angle b := by
  cases a; cases b; cases hp; cases hq; rfl

theorem sample_congr {a b : Channel} (hp : a.phase = b.phase) (hq : a.period = b.period) (ha : a.amp = b.amp)
    (hc : a.center = b.center) (hm : a.mode = b.mode) : sample a = sample b := by
  simp only [sample, sampleValue, raw, scaled, prod, angle_congr hp hq, ha, hc, hm]

theorem angle_inPeriod {ch : Channel} (h : ch.phase.toNat < ch.period.toNat) :
    angle ch = BitVec.ofNat 10 (ch.phase.toNat * 1024 / ch.period.toNat) := by
  simp [angle, Channel.inPeriod, h, Config.angleBits]

theorem progress_inPeriod {ch : Channel} (h : ch.phase.toNat < ch.period.toNat) :
    progress ch = BitVec.ofNat 16 (ch.phase.toNat * 65536 / ch.period.toNat) := by
  simp [progress, Channel.inPeriod, h]

/-- A phase below the period makes a fraction below `k` when scaled by `k`. -/
theorem scaled_phase_lt {p q k : Nat} (h : p < q) (hk : 0 < k) : p * k / q < k := by
  rw [Nat.div_lt_iff_lt_mul (by omega)]
  calc p * k < q * k := Nat.mul_lt_mul_of_pos_right h hk
    _ = k * q := Nat.mul_comm _ _

/-! ### The advance of the counters -/

section advance
variable (ch : Channel)

@[simp] theorem advance_owner : (advance ch).owner = ch.owner := by unfold advance; split <;> rfl
@[simp] theorem advance_mode : (advance ch).mode = ch.mode := by unfold advance; split <;> rfl
@[simp] theorem advance_relay : (advance ch).relay = ch.relay := by unfold advance; split <;> rfl
@[simp] theorem advance_amp : (advance ch).amp = ch.amp := by unfold advance; split <;> rfl
@[simp] theorem advance_period : (advance ch).period = ch.period := by unfold advance; split <;> rfl
@[simp] theorem advance_center : (advance ch).center = ch.center := by unfold advance; split <;> rfl
@[simp] theorem advance_outV : (advance ch).outV = ch.outV := by unfold advance; split <;> rfl
@[simp] theorem advance_outI : (advance ch).outI = ch.outI := by unfold advance; split <;> rfl
@[simp] theorem advance_manual : (advance ch).manual = ch.manual := by unfold advance; split <;> rfl
@[simp] theorem advance_snap : (advance ch).snap = ch.snap := by unfold advance; split <;> rfl
@[simp] theorem advance_active : (advance ch).active = ch.active := by simp [Channel.active]

variable {ch}

theorem advance_of_active (h : ch.active = true) :
    advance ch = { ch with elapsed := ch.elapsed + 1, phase := nextPhase ch } := by simp [advance, h]

theorem advance_of_not_active (h : ch.active = false) : advance ch = ch := by simp [advance, h]

end advance

/-- Within the period the next phase is within the period again. -/
theorem nextPhase_toNat {ch : Channel} (h : ch.phase.toNat < ch.period.toNat) :
    (nextPhase ch).toNat = if ch.phase.toNat + 1 = ch.period.toNat then 0 else ch.phase.toNat + 1 := by
  have hp := ch.period.isLt
  unfold nextPhase
  split
  · rfl
  · rw [BitVec.toNat_add]; simp; omega

theorem nextPhase_lt {ch : Channel} (h : ch.phase.toNat < ch.period.toNat) :
    (nextPhase ch).toNat < ch.period.toNat := by
  rw [nextPhase_toNat h]; split <;> omega

/-! ### `writeSample` -/

theorem writeSample_chan (c d : ChanId) (s : State) :
    (writeSample c s).chan d =
      if d = c then (s.chan c).setSink (sinkOf (s.chan c).mode) (sample (s.chan c)) else s.chan d := by
  simp [writeSample, emitSink_chan]

@[simp] theorem writeSample_events (c : ChanId) (s : State) :
    (writeSample c s).events = s.events ++ [.sinkWrite c (sinkOf (s.chan c).mode) (sample (s.chan c))] := by
  simp [writeSample]

section writeSample
variable (c : ChanId) (s : State)

@[simp] theorem writeSample_gmode : (writeSample c s).gmode = s.gmode := by simp [writeSample]
@[simp] theorem writeSample_regId : (writeSample c s).regId = s.regId := by simp [writeSample]
@[simp] theorem writeSample_updCnt : (writeSample c s).updCnt = s.updCnt := by simp [writeSample]
@[simp] theorem writeSample_result : (writeSample c s).result = s.result := by simp [writeSample]
@[simp] theorem writeSample_arg0 : (writeSample c s).arg0 = s.arg0 := by simp [writeSample]
@[simp] theorem writeSample_arg1 : (writeSample c s).arg1 = s.arg1 := by simp [writeSample]
@[simp] theorem writeSample_arg2 : (writeSample c s).arg2 = s.arg2 := by simp [writeSample]
@[simp] theorem writeSample_rdata : (writeSample c s).rdata = s.rdata := by simp [writeSample]
@[simp] theorem writeSample_draws : (writeSample c s).draws = s.draws := by simp [writeSample]
@[simp] theorem writeSample_wasReset : (writeSample c s).wasReset = s.wasReset := by simp [writeSample]
@[simp] theorem writeSample_inputs : (writeSample c s).inputs = s.inputs := by simp [writeSample]

end writeSample

end Sys2Proof.Machine
end

