-- ==== Sys2Proof/Laws/Tick.lean ====
section
/-! SUPPORT. What the update event and the tick do, register by register. -/

namespace Sys2Proof.Machine

/-- The update event's iteration for one channel. -/
def updateChan (c : ChanId) (s : State) : State := if (s.chan c).active then writeSample c s else s

/-- What the update event does to the registers of one channel: an active one's sample goes to the sink of its mode. -/
def Channel.sampled (ch : Channel) : Channel := if ch.active then ch.setSink (sinkOf ch.mode) (sample ch) else ch

/-- The event of the update for one channel. -/
def sampleEvents (c : ChanId) (ch : Channel) : List Event :=
  if ch.active then [.sinkWrite c (sinkOf ch.mode) (sample ch)] else []

theorem updateChan_chan (c d : ChanId) (s : State) :
    (updateChan c s).chan d = if d = c then (s.chan c).sampled else s.chan d := by
  unfold updateChan Channel.sampled
  split
  · rw [writeSample_chan]
  · split
    · next h => rw [h]
    · rfl

theorem updateChan_events (c : ChanId) (s : State) :
    (updateChan c s).events = s.events ++ sampleEvents c (s.chan c) := by
  unfold updateChan sampleEvents; split <;> simp

theorem updateEvent_of_analog {s : State} (h : s.gmode = .analog) : updateEvent s = forChans updateChan s := by
  simp [updateEvent, h]; rfl

theorem updateEvent_of_register {s : State} (h : s.gmode = .register) : updateEvent s = s := by
  simp [updateEvent, h]

theorem updateEvent_chan (s : State) (d : ChanId) :
    (updateEvent s).chan d = if s.gmode = .analog then (s.chan d).sampled else s.chan d := by
  cases h : s.gmode
  · rw [updateEvent_of_analog h, forChans_chan updateChan Channel.sampled updateChan_chan]; simp
  · rw [updateEvent_of_register h]; simp

theorem updateEvent_events (s : State) :
    (updateEvent s).events =
      s.events ++
        if s.gmode = .analog then sampleEvents .c1 s.ch1 ++ sampleEvents .c2 s.ch2 ++ sampleEvents .c3 s.ch3 else [] := by
  cases h : s.gmode
  · rw [updateEvent_of_analog h, forChans_events updateChan Channel.sampled sampleEvents updateChan_chan updateChan_events]
    simp
  · rw [updateEvent_of_register h]; simp

/-- A field that no sample write changes is unchanged by the update event. -/
theorem updateEvent_field {α : Type} (g : State → α) (h : ∀ c s, g (writeSample c s) = g s) (s : State) :
    g (updateEvent s) = g s := by
  unfold updateEvent
  split
  · exact forChans_field g _ (fun c s => by split <;> simp [h]) s
  · rfl

/-- The tick's update event falls on this tick and writes samples: the divider expires in ANALOG (R112, R114). -/
def State.updates (s : State) : Bool := decide (s.updCnt.toNat = 249) && decide (s.gmode = .analog)

/-- A tick on which the divider expires. -/
theorem tick_of_expired {s : State} (h : s.updCnt.toNat = 249) :
    tick s = updateEvent { s.mapChans advance with updCnt := 0 } := if_pos h

/-- A tick on which the divider does not expire. -/
theorem tick_of_running {s : State} (h : s.updCnt.toNat ≠ 249) :
    tick s = { s.mapChans advance with updCnt := s.updCnt + 1 } := if_neg h

/-- The tick's effect on a channel: its counters advance, and at an update event its sample is written. -/
theorem tick_chan (s : State) (d : ChanId) :
    (tick s).chan d = if s.updates then (advance (s.chan d)).sampled else advance (s.chan d) := by
  by_cases h : s.updCnt.toNat = 249
  · rw [tick_of_expired h, updateEvent_chan]
    cases hg : s.gmode <;> cases d <;> simp [hg, h, State.updates, State.chan, State.mapChans]
  · rw [tick_of_running h]
    cases d <;> simp [State.chan, State.mapChans, h, State.updates]

theorem tick_events (s : State) :
    (tick s).events =
      s.events ++
        if s.updates then
          sampleEvents .c1 (advance s.ch1) ++ sampleEvents .c2 (advance s.ch2) ++ sampleEvents .c3 (advance s.ch3)
        else [] := by
  by_cases h : s.updCnt.toNat = 249
  · rw [tick_of_expired h, updateEvent_events]
    cases hg : s.gmode <;> simp [hg, h, State.updates, State.mapChans]
  · rw [tick_of_running h]; simp [h, State.updates]

theorem tick_updCnt (s : State) : (tick s).updCnt = if s.updCnt.toNat = 249 then 0 else s.updCnt + 1 := by
  by_cases h : s.updCnt.toNat = 249
  · rw [tick_of_expired h, if_pos h, updateEvent_field State.updCnt (by simp)]
  · rw [tick_of_running h, if_neg h]

/-- A field that neither the counters' advance nor the divider nor a sample write changes is unchanged by a tick. -/
theorem tick_field {α : Type} (g : State → α) (hm : ∀ s : State, g (s.mapChans advance) = g s)
    (hu : ∀ (s : State) (u : BitVec 8), g { s with updCnt := u } = g s) (h : ∀ c s, g (writeSample c s) = g s)
    (s : State) : g (tick s) = g s := by
  by_cases h9 : s.updCnt.toNat = 249
  · rw [tick_of_expired h9, updateEvent_field g h, hu, hm]
  · rw [tick_of_running h9, hu, hm]

section tick
variable (s : State)

@[simp] theorem tick_gmode : (tick s).gmode = s.gmode := tick_field _ (by simp) (fun _ _ => rfl) (by simp) s
@[simp] theorem tick_regId : (tick s).regId = s.regId := tick_field _ (by simp) (fun _ _ => rfl) (by simp) s
@[simp] theorem tick_result : (tick s).result = s.result := tick_field _ (by simp) (fun _ _ => rfl) (by simp) s
@[simp] theorem tick_arg0 : (tick s).arg0 = s.arg0 := tick_field _ (by simp) (fun _ _ => rfl) (by simp) s
@[simp] theorem tick_arg1 : (tick s).arg1 = s.arg1 := tick_field _ (by simp) (fun _ _ => rfl) (by simp) s
@[simp] theorem tick_arg2 : (tick s).arg2 = s.arg2 := tick_field _ (by simp) (fun _ _ => rfl) (by simp) s
@[simp] theorem tick_rdata : (tick s).rdata = s.rdata := tick_field _ (by simp) (fun _ _ => rfl) (by simp) s
@[simp] theorem tick_draws : (tick s).draws = s.draws := tick_field _ (by simp) (fun _ _ => rfl) (by simp) s
@[simp] theorem tick_wasReset : (tick s).wasReset = s.wasReset := tick_field _ (by simp) (fun _ _ => rfl) (by simp) s
@[simp] theorem tick_inputs : (tick s).inputs = s.inputs := tick_field _ (by simp) (fun _ _ => rfl) (by simp) s

end tick

/-- A tick leaves a channel that is not active as it is. -/
theorem tick_chan_of_not_active {s : State} {c : ChanId} (h : (s.chan c).active = false) :
    (tick s).chan c = s.chan c := by
  rw [tick_chan, advance_of_not_active h]; simp [Channel.sampled, h]

section sampled
variable (ch : Channel)

@[simp] theorem Channel.sampled_owner : ch.sampled.owner = ch.owner := by unfold Channel.sampled; split <;> simp
@[simp] theorem Channel.sampled_mode : ch.sampled.mode = ch.mode := by unfold Channel.sampled; split <;> simp
@[simp] theorem Channel.sampled_relay : ch.sampled.relay = ch.relay := by unfold Channel.sampled; split <;> simp
@[simp] theorem Channel.sampled_amp : ch.sampled.amp = ch.amp := by unfold Channel.sampled; split <;> simp
@[simp] theorem Channel.sampled_period : ch.sampled.period = ch.period := by unfold Channel.sampled; split <;> simp
@[simp] theorem Channel.sampled_center : ch.sampled.center = ch.center := by unfold Channel.sampled; split <;> simp
@[simp] theorem Channel.sampled_phase : ch.sampled.phase = ch.phase := by unfold Channel.sampled; split <;> simp
@[simp] theorem Channel.sampled_elapsed : ch.sampled.elapsed = ch.elapsed := by unfold Channel.sampled; split <;> simp
@[simp] theorem Channel.sampled_manual : ch.sampled.manual = ch.manual := by unfold Channel.sampled; split <;> simp
@[simp] theorem Channel.sampled_snap : ch.sampled.snap = ch.snap := by unfold Channel.sampled; split <;> simp
@[simp] theorem Channel.sampled_active : ch.sampled.active = ch.active := by simp [Channel.active]

end sampled

end Sys2Proof.Machine
end

