-- ==== Sys2Proof/Laws/Exec.lean ====
section
/-! SUPPORT. What a command can do, said once: `exec_result` gives, for every command and state, the one of nine outcomes that
is its next state, and the lemmas before it say what each outcome does to every register. -/

namespace Sys2Proof.Machine

/-! ### The fields that name a channel or a mode -/

@[simp] theorem ChanId.length_all : ChanId.all.length = Config.nCh := rfl

@[simp] theorem ChanId.mem_all (c : ChanId) : c ∈ ChanId.all := by cases c <;> decide

@[simp] theorem chanOfField_number (c : ChanId) : chanOfField c.number = some c := by cases c <;> rfl

@[simp] theorem modeOfField_number (m : Mode) : modeOfField m.number = some m := by cases m <;> rfl

theorem chanOfField_eq_none {n : Nat} (h : n = 0 ∨ 3 < n) : chanOfField n = none := if_pos h

/-- A CH field names no channel, or names one. -/
theorem chanField_cases (ch : Nat) : (ch = 0 ∨ 3 < ch) ∨ ∃ c : ChanId, ch = c.number := by
  rcases (by omega : (ch = 0 ∨ 3 < ch) ∨ ch = 1 ∨ ch = 2 ∨ ch = 3) with h | h | h | h
  · exact .inl h
  · exact .inr ⟨.c1, h⟩
  · exact .inr ⟨.c2, h⟩
  · exact .inr ⟨.c3, h⟩

theorem chanOfField_eq_some {n : Nat} {c : ChanId} (h : chanOfField n = some c) : n = c.number := by
  rcases chanField_cases n with hn | ⟨d, rfl⟩
  · rw [chanOfField_eq_none hn] at h; cases h
  · rw [chanOfField_number] at h; cases h; rfl

theorem modeOfField_eq_some {n : Nat} {m : Mode} (h : modeOfField n = some m) : n = m.number := by
  unfold modeOfField at h
  split at h <;> simp_all <;> subst h <;> rfl

theorem modeOfField_eq_none {n : Nat} (h : 1 < n) : modeOfField n = none := by
  unfold modeOfField
  split <;> first | omega | rfl

/-- An MD field names no mode, or names one. -/
theorem modeField_cases (md : Nat) : 1 < md ∨ ∃ m : Mode, md = m.number := by
  rcases (by omega : 1 < md ∨ md = 0 ∨ md = 1) with h | h | h
  · exact .inl h
  · exact .inr ⟨.v, h⟩
  · exact .inr ⟨.c, h⟩

theorem ChanId.number_bounds (c : ChanId) : 1 ≤ c.number ∧ c.number ≤ 3 := by cases c <;> decide

theorem ChanId.number_injective {c d : ChanId} (h : c.number = d.number) : c = d := by
  cases c <;> cases d <;> first | rfl | (simp [ChanId.number] at h)

theorem Mode.number_le (m : Mode) : m.number ≤ 1 := by cases m <;> decide

theorem periodOk_iff (p : Nat) : periodOk p = true ↔ 1000 ≤ p ∧ p ≤ 60000 := by
  simp [periodOk]

theorem valueOk_iff (m : Mode) (v : Int) : valueOk m v = true ↔ 0 ≤ v ∧ v ≤ maxOf m := by simp [valueOk]

theorem identifierOk_iff (id : Nat) : identifierOk id = true ↔ 1 ≤ id ∧ id ≤ 247 := by
  simp [identifierOk]

theorem GMode.ne_analog {g : GMode} (h : g ≠ .analog) : g = .register := by cases g <;> simp_all

theorem GMode.ne_register {g : GMode} (h : g ≠ .register) : g = .analog := by cases g <;> simp_all

/-! ### The checks -/

theorem checkStart_ok {c : ChanId} {m : Mode} {s : State} (hg : s.gmode = .analog)
    (hp : periodOk (periodOperand s) = true) (ha : 0 ≤ amplitudeOperand s) :
    checkStart c.number m.number s = .ok (c, m) := by
  simp [checkStart, hg, hp, Int.not_lt.mpr ha]

/-- A START_WAVE that passes its checks names a channel and a mode, in ANALOG, with a period and an amplitude in range. -/
theorem checkStart_eq_ok {ch md : Nat} {c : ChanId} {m : Mode} {s : State} (h : checkStart ch md s = .ok (c, m)) :
    s.gmode = .analog ∧ ch = c.number ∧ md = m.number ∧ periodOk (periodOperand s) = true ∧ 0 ≤ amplitudeOperand s := by
  unfold checkStart at h
  split at h
  · cases h
  · next hg =>
    split at h
    · cases h
    · next hc =>
      split at h
      · cases h
      · next hm =>
        split at h
        · cases h
        · next hp =>
          split at h
          · cases h
          · next ha =>
            cases h
            exact ⟨by simpa using hg, chanOfField_eq_some hc, modeOfField_eq_some hm, by simpa using hp,
              Int.not_lt.mp ha⟩

theorem checkStart_error {ch md : Nat} {code : ResultCode} {s : State} (h : checkStart ch md s = .error code) :
    code ≠ .ok ∧ code ≠ .rangeWarning := by
  unfold checkStart at h
  split at h
  · cases h; simp
  · split at h
    · cases h; simp
    · split at h
      · cases h; simp
      · split at h
        · cases h; simp
        · split at h <;> cases h
          simp

theorem checkSet_ok {c : ChanId} {m : Mode} {s : State} (hg : s.gmode = .analog)
    (hv : valueOk m (valueOperand s) = true) : checkSet c.number m.number s = .ok (c, m) := by
  simp [checkSet, hg, hv]

/-- A SET_MANUAL that passes its checks names a channel and a mode, in ANALOG, with a value in range. -/
theorem checkSet_eq_ok {ch md : Nat} {c : ChanId} {m : Mode} {s : State} (h : checkSet ch md s = .ok (c, m)) :
    s.gmode = .analog ∧ ch = c.number ∧ md = m.number ∧ valueOk m (valueOperand s) = true := by
  unfold checkSet at h
  split at h
  · cases h
  · next hg =>
    split at h
    · cases h
    · next hc =>
      split at h
      · cases h
      · next hm =>
        split at h
        · cases h
        · next hv =>
          cases h
          exact ⟨by simpa using hg, chanOfField_eq_some hc, modeOfField_eq_some hm, by simpa using hv⟩

theorem checkSet_error {ch md : Nat} {code : ResultCode} {s : State} (h : checkSet ch md s = .error code) :
    code ≠ .ok ∧ code ≠ .rangeWarning := by
  unfold checkSet at h
  split at h
  · cases h; simp
  · split at h
    · cases h; simp
    · split at h
      · cases h; simp
      · split at h <;> cases h
        simp

/-! ### START_WAVE after its checks -/

/-- The registers of the started channel (R120): the loaded waveform, the relay on its path, the phase-0 sample on its sink. -/
def startedChannel (m : Mode) (s : State) (ch : Channel) : Channel :=
  let loaded := { loadWave m (amplitudeOperand s) (periodOperand s) (centerOperand s) ch with relay := (pathOf m).code }
  loaded.setSink (sinkOf m) (sample loaded)

theorem startChannel_chan (c d : ChanId) (m : Mode) (s : State) :
    (startChannel c m s).chan d = if d = c then startedChannel m s (s.chan c) else s.chan d := by
  by_cases h : d = c <;>
    simp [startChannel, writeSample_chan, emitRelay_chan, State.chan_modChan, h, startedChannel, loadWave]

@[simp] theorem startChannel_result (c : ChanId) (m : Mode) (s : State) :
    (startChannel c m s).result = (startCode m s).code := by simp [startChannel]

theorem startCode_cases (m : Mode) (s : State) : startCode m s = .ok ∨ startCode m s = .rangeWarning := by
  unfold startCode; split <;> simp

theorem startChannel_events (c : ChanId) (m : Mode) (s : State) :
    (startChannel c m s).events =
      s.events ++ ([.relaySet c (pathOf m), .sinkWrite c (sinkOf m) (sample (startedChannel m s (s.chan c)))] ++
        if startCode m s = .ok then [] else [.notice (startCode m s)]) := by
  have hs : sample (startedChannel m s (s.chan c)) =
      sample { loadWave m (amplitudeOperand s) (periodOperand s) (centerOperand s) (s.chan c) with
        relay := (pathOf m).code } := by
    apply sample_congr <;> simp [startedChannel]
  rw [hs]
  simp [startChannel, loadWave]

section startChannel
variable (c : ChanId) (m : Mode) (s : State)

@[simp] theorem startChannel_gmode : (startChannel c m s).gmode = s.gmode := by simp [startChannel]
@[simp] theorem startChannel_regId : (startChannel c m s).regId = s.regId := by simp [startChannel]
@[simp] theorem startChannel_updCnt : (startChannel c m s).updCnt = s.updCnt := by simp [startChannel]
@[simp] theorem startChannel_arg0 : (startChannel c m s).arg0 = s.arg0 := by simp [startChannel]
@[simp] theorem startChannel_arg1 : (startChannel c m s).arg1 = s.arg1 := by simp [startChannel]
@[simp] theorem startChannel_arg2 : (startChannel c m s).arg2 = s.arg2 := by simp [startChannel]
@[simp] theorem startChannel_rdata : (startChannel c m s).rdata = s.rdata := by simp [startChannel]
@[simp] theorem startChannel_draws : (startChannel c m s).draws = s.draws := by simp [startChannel]
@[simp] theorem startChannel_wasReset : (startChannel c m s).wasReset = s.wasReset := by simp [startChannel]
@[simp] theorem startChannel_inputs : (startChannel c m s).inputs = s.inputs := by simp [startChannel]

end startChannel

/-! ### SET_MANUAL after its checks -/

/-- The value SET_MANUAL drives, as its 16-bit pattern. -/
def setValue (s : State) : BitVec 16 := BitVec.ofInt 16 (valueOperand s)

/-- The registers of the channel SET_MANUAL takes (R154). -/
def setChannelRegs (m : Mode) (v : BitVec 16) (ch : Channel) : Channel :=
  { Channel.setSink (sinkOf m) v { ch.stopped with owner := .manual, mode := m, relay := (pathOf m).code } with
    manual := v }

theorem setChannel_chan (c d : ChanId) (m : Mode) (s : State) :
    (setChannel c m s).chan d = if d = c then setChannelRegs m (setValue s) (s.chan c) else s.chan d := by
  by_cases h : d = c <;>
    simp [setChannel, emitSink_chan, emitRelay_chan, State.chan_modChan, stopOne_chan, h, setChannelRegs, setValue]

theorem setChannel_events (c : ChanId) (m : Mode) (s : State) :
    (setChannel c m s).events =
      s.events ++ (stopEvents c (s.chan c) ++ [.relaySet c (pathOf m), .sinkWrite c (sinkOf m) (setValue s)]) := by
  simp [setChannel, setValue]

@[simp] theorem setChannel_result (c : ChanId) (m : Mode) (s : State) : (setChannel c m s).result = 0 := rfl

section setChannel
variable (c : ChanId) (m : Mode) (s : State)

@[simp] theorem setChannel_gmode : (setChannel c m s).gmode = s.gmode := by simp [setChannel]
@[simp] theorem setChannel_regId : (setChannel c m s).regId = s.regId := by simp [setChannel]
@[simp] theorem setChannel_updCnt : (setChannel c m s).updCnt = s.updCnt := by simp [setChannel]
@[simp] theorem setChannel_arg0 : (setChannel c m s).arg0 = s.arg0 := by simp [setChannel]
@[simp] theorem setChannel_arg1 : (setChannel c m s).arg1 = s.arg1 := by simp [setChannel]
@[simp] theorem setChannel_arg2 : (setChannel c m s).arg2 = s.arg2 := by simp [setChannel]
@[simp] theorem setChannel_rdata : (setChannel c m s).rdata = s.rdata := by simp [setChannel]
@[simp] theorem setChannel_draws : (setChannel c m s).draws = s.draws := by simp [setChannel]
@[simp] theorem setChannel_wasReset : (setChannel c m s).wasReset = s.wasReset := by simp [setChannel]
@[simp] theorem setChannel_inputs : (setChannel c m s).inputs = s.inputs := by simp [setChannel]

end setChannel

/-! ### ENTER_REG and EXIT_REG after their checks -/

theorem enterRegister_chan (id : Nat) (s : State) (d : ChanId) :
    (enterRegister id s).chan d =
      { (s.chan d).stopped with outV := 0, outI := 0, relay := 0, mode := .v, owner := .reg } := by
  have h : (enterRegister id s).chan d =
      ((safeOutputs (forChans stopOne s)).mapChans fun ch => { ch with mode := .v, owner := .reg }).chan d := by
    cases d <;> rfl
  rw [h, State.chan_mapChans, safeOutputs_chan, stopAll_chan]

theorem enterRegister_events (id : Nat) (s : State) :
    (enterRegister id s).events =
      s.events ++ (stopEvents .c1 s.ch1 ++ stopEvents .c2 s.ch2 ++ stopEvents .c3 s.ch3) ++ safeEvents := by
  have h : (enterRegister id s).events = (safeOutputs (forChans stopOne s)).events := rfl
  rw [h, safeOutputs_events, stopAll_events]

@[simp] theorem enterRegister_gmode (id : Nat) (s : State) : (enterRegister id s).gmode = .register := rfl
@[simp] theorem enterRegister_regId (id : Nat) (s : State) : (enterRegister id s).regId = BitVec.ofNat 8 id := rfl
@[simp] theorem enterRegister_result (id : Nat) (s : State) : (enterRegister id s).result = 0 := rfl

section enterRegister
variable (id : Nat) (s : State)

@[simp] theorem enterRegister_updCnt : (enterRegister id s).updCnt = s.updCnt := by simp [enterRegister]
@[simp] theorem enterRegister_arg0 : (enterRegister id s).arg0 = s.arg0 := by simp [enterRegister]
@[simp] theorem enterRegister_arg1 : (enterRegister id s).arg1 = s.arg1 := by simp [enterRegister]
@[simp] theorem enterRegister_arg2 : (enterRegister id s).arg2 = s.arg2 := by simp [enterRegister]
@[simp] theorem enterRegister_rdata : (enterRegister id s).rdata = s.rdata := by simp [enterRegister]
@[simp] theorem enterRegister_draws : (enterRegister id s).draws = s.draws := by simp [enterRegister]
@[simp] theorem enterRegister_wasReset : (enterRegister id s).wasReset = s.wasReset := by simp [enterRegister]
@[simp] theorem enterRegister_inputs : (enterRegister id s).inputs = s.inputs := by simp [enterRegister]

end enterRegister

/-- EXIT_REG after its check. -/
def exitRegister (s : State) : State :=
  accept .ok (State.mapChans { s with gmode := .analog } fun ch => { ch with owner := .none })

theorem exitRegister_chan (s : State) (d : ChanId) : (exitRegister s).chan d = { s.chan d with owner := .none } := by
  cases d <;> rfl

@[simp] theorem exitRegister_gmode (s : State) : (exitRegister s).gmode = .analog := rfl
@[simp] theorem exitRegister_result (s : State) : (exitRegister s).result = 0 := rfl
@[simp] theorem exitRegister_events (s : State) : (exitRegister s).events = s.events := rfl

section exitRegister
variable (s : State)

@[simp] theorem exitRegister_regId : (exitRegister s).regId = s.regId := rfl
@[simp] theorem exitRegister_updCnt : (exitRegister s).updCnt = s.updCnt := rfl
@[simp] theorem exitRegister_arg0 : (exitRegister s).arg0 = s.arg0 := rfl
@[simp] theorem exitRegister_arg1 : (exitRegister s).arg1 = s.arg1 := rfl
@[simp] theorem exitRegister_arg2 : (exitRegister s).arg2 = s.arg2 := rfl
@[simp] theorem exitRegister_rdata : (exitRegister s).rdata = s.rdata := rfl
@[simp] theorem exitRegister_draws : (exitRegister s).draws = s.draws := rfl
@[simp] theorem exitRegister_wasReset : (exitRegister s).wasReset = s.wasReset := rfl
@[simp] theorem exitRegister_inputs : (exitRegister s).inputs = s.inputs := rfl

end exitRegister

/-! ### QUERY_STATUS -/

/-- The state QUERY_STATUS leaves. -/
def queried (s : State) : State := accept .ok (s.mapChans fun ch => { ch with snap := snapshotOf ch })

theorem queried_chan (s : State) (d : ChanId) :
    (queried s).chan d = { s.chan d with snap := snapshotOf (s.chan d) } := by cases d <;> rfl

@[simp] theorem queried_result (s : State) : (queried s).result = 0 := rfl
@[simp] theorem queried_events (s : State) : (queried s).events = s.events := rfl

section queried
variable (s : State)

@[simp] theorem queried_gmode : (queried s).gmode = s.gmode := rfl
@[simp] theorem queried_regId : (queried s).regId = s.regId := rfl
@[simp] theorem queried_updCnt : (queried s).updCnt = s.updCnt := rfl
@[simp] theorem queried_arg0 : (queried s).arg0 = s.arg0 := rfl
@[simp] theorem queried_arg1 : (queried s).arg1 = s.arg1 := rfl
@[simp] theorem queried_arg2 : (queried s).arg2 = s.arg2 := rfl
@[simp] theorem queried_rdata : (queried s).rdata = s.rdata := rfl
@[simp] theorem queried_draws : (queried s).draws = s.draws := rfl
@[simp] theorem queried_wasReset : (queried s).wasReset = s.wasReset := rfl
@[simp] theorem queried_inputs : (queried s).inputs = s.inputs := rfl

end queried

/-! ### Every outcome of a command -/

/-- The outcomes of a command: a rejection with a code of 2 to 9, or the effect of the command whose checks passed. -/
inductive CommandResult : Instr → State → State → Prop where
  | rejected {i : Instr} {s : State} (code : ResultCode) (h : code ≠ .ok ∧ code ≠ .rangeWarning) :
      CommandResult i s (reject code s)
  | started {s : State} (c : ChanId) (m : Mode) (hg : s.gmode = .analog) (hp : periodOk (periodOperand s) = true)
      (ha : 0 ≤ amplitudeOperand s) : CommandResult (.startWave c.number m.number) s (startChannel c m s)
  | stoppedAll {s : State} (hg : s.gmode = .analog) : CommandResult (.stopWave 0) s (accept .ok (forChans stopOne s))
  | stoppedOne {s : State} (c : ChanId) (hg : s.gmode = .analog) :
      CommandResult (.stopWave c.number) s (accept .ok (stopOne c s))
  | set {s : State} (c : ChanId) (m : Mode) (hg : s.gmode = .analog) (hv : valueOk m (valueOperand s) = true) :
      CommandResult (.setManual c.number m.number) s (setChannel c m s)
  | entered {s : State} (id : Nat) (hg : s.gmode = .analog) (hid : identifierOk id = true) :
      CommandResult (.enterReg id) s (enterRegister id s)
  | exited {s : State} (hg : s.gmode = .register) : CommandResult .exitReg s (exitRegister s)
  | queried {s : State} : CommandResult .queryStatus s (queried s)

/-- Every command in every state answers one of the outcomes. -/
theorem exec_result (i : Instr) (s : State) : ∃ t, exec i s = .next t ∧ CommandResult i s t := by
  cases i with
  | startWave ch md =>
    simp only [exec, execStartWave]
    cases h : checkStart ch md s with
    | error code => exact ⟨_, rfl, .rejected code (checkStart_error h)⟩
    | ok p =>
      obtain ⟨c, m⟩ := p
      obtain ⟨hg, rfl, rfl, hp, ha⟩ := checkStart_eq_ok h
      exact ⟨_, rfl, .started c m hg hp ha⟩
  | stopWave ch =>
    simp only [exec, execStopWave]
    split
    · exact ⟨_, rfl, .rejected _ (by simp)⟩
    · next hg =>
      have hg : s.gmode = .analog := by simpa using hg
      split
      · next h0 => subst h0; exact ⟨_, rfl, .stoppedAll hg⟩
      · split
        · exact ⟨_, rfl, .rejected _ (by simp)⟩
        · next c hc => rw [chanOfField_eq_some hc]; exact ⟨_, rfl, .stoppedOne c hg⟩
  | setManual ch md =>
    simp only [exec, execSetManual]
    cases h : checkSet ch md s with
    | error code => exact ⟨_, rfl, .rejected code (checkSet_error h)⟩
    | ok p =>
      obtain ⟨c, m⟩ := p
      obtain ⟨hg, rfl, rfl, hv⟩ := checkSet_eq_ok h
      exact ⟨_, rfl, .set c m hg hv⟩
  | enterReg id =>
    simp only [exec, execEnterReg]
    split
    · exact ⟨_, rfl, .rejected _ (by simp)⟩
    · next hg =>
      split
      · exact ⟨_, rfl, .rejected _ (by simp)⟩
      · next hid => exact ⟨_, rfl, .entered id (by simpa using hg) (by simpa using hid)⟩
  | exitReg =>
    simp only [exec, execExitReg]
    split
    · exact ⟨_, rfl, .rejected _ (by simp)⟩
    · next hg => exact ⟨_, rfl, .exited (by simpa using hg)⟩
  | queryStatus => exact ⟨_, rfl, .queried⟩

/-- If a command answers `next t`, then `t` is one of its outcomes. -/
theorem result_of_exec {i : Instr} {s t : State} (h : exec i s = .next t) : CommandResult i s t := by
  obtain ⟨u, hu, hr⟩ := exec_result i s
  rw [hu] at h
  cases h
  exact hr

end Sys2Proof.Machine
end

