-- ==== Sys2Proof/Laws/Bus.lean ====
section
/-! SUPPORT. The laws of the register space: what a read gives by slot, what a write does by slot, and the bits of the status
words (20_memory.md R61 to R66). -/

namespace Sys2Proof.Machine

/-! ### Slots -/

theorem slotOf_lt (a : Addr) : slotOf a < 64 := by have := a.isLt; unfold slotOf; omega

/-- A slot below 16 is a global register's. -/
theorem regRead_global {a : Addr} (h : slotOf a < 16) (s : State) : regRead a s = readGlobal (slotOf a) s := by
  have h0 : slotOf a / 16 = 0 := by omega
  simp [regRead, h0, chanOfField]

/-- The slots from `16·c` to `16·c + 15` are channel `c`'s. -/
theorem regRead_channel {a : Addr} {c : ChanId} (h : slotOf a / 16 = c.number) (s : State) :
    regRead a s = readChannel (slotOf a % 16) (s.chan c) := by simp [regRead, h]

/-- The byte address of slot `k` of channel `c`'s block. -/
theorem slotOf_chanAddr (c : ChanId) {off : Nat} (h : off < 64) :
    slotOf (BitVec.ofNat 8 (0x40 * c.number + off)) = 16 * c.number + off / 4 := by
  have := c.number_bounds
  simp only [slotOf, BitVec.toNat_ofNat]; omega

theorem readGlobal_reserved {slot : Nat} (h : slot = 0 ∨ 6 ≤ slot) (s : State) : readGlobal slot s = 0 := by
  unfold readGlobal; split <;> first | omega | rfl

theorem readChannel_reserved {slot : Nat} (h : 15 ≤ slot) (ch : Channel) : readChannel slot ch = 0 := by
  unfold readChannel; split <;> first | omega | rfl

/-- Every slot from 4 on ignores writes. -/
theorem regWrite_ignored {a : Addr} (h : 4 ≤ slotOf a) (w : Word) (s : State) : regWrite a w s = .next s := by
  unfold regWrite; split <;> first | omega | rfl

/-- Two addresses of one slot read alike and write alike. -/
theorem reg_congr {a b : Addr} (h : slotOf a = slotOf b) :
    regRead a = regRead b ∧ regWrite a = regWrite b := by
  constructor <;> funext
  · simp only [regRead, h]
  · simp only [regWrite, h]

/-- A read looks at the block's own registers alone, not at the model's fields of the cycle. -/
theorem regRead_congr {s t : State} (a : Addr) (h0 : t.arg0 = s.arg0) (h1 : t.arg1 = s.arg1) (h2 : t.arg2 = s.arg2)
    (hr : t.result = s.result) (hg : t.gmode = s.gmode) (hi : t.regId = s.regId) (hc : ∀ c, t.chan c = s.chan c) :
    regRead a t = regRead a s := by
  have c1 : t.ch1 = s.ch1 := hc .c1
  have c2 : t.ch2 = s.ch2 := hc .c2
  have c3 : t.ch3 = s.ch3 := hc .c3
  unfold regRead
  split
  · simp only [readGlobal, statusWord, h0, h1, h2, hr, hg, hi, c1, c2, c3]
  · rw [hc]

/-- A read at the beginning of a cycle sees the registers as they stood before it. -/
@[simp] theorem regRead_beginCycle (a : Addr) (s : State) : regRead a s.beginCycle = regRead a s :=
  regRead_congr a rfl rfl rfl rfl rfl rfl fun c => by cases c <;> rfl

/-! ### The bits of the status words -/

theorem getLsbD_ofBool (b : Bool) (n : Nat) : (BitVec.ofBool b).getLsbD n = (b && decide (n = 0)) := by
  cases b <;> cases n <;> simp

@[simp] theorem getLsbD_activeBit (ch : Channel) (n : Nat) : ch.activeBit.getLsbD n = (ch.active && decide (n = 0)) :=
  getLsbD_ofBool _ n

/-- Bit `n` of `STATUS` (R64). -/
theorem getLsbD_statusWord (s : State) (n : Nat) :
    (statusWord s).getLsbD n =
      (decide (n < 4) && s.result.getLsbD n || decide (n = 8) && s.gmode.code.getLsbD 0 ||
        decide (n = 12) && s.ch1.active || decide (n = 13) && s.ch2.active || decide (n = 14) && s.ch3.active ||
        decide (16 ≤ n) && decide (n < 24) && s.regId.getLsbD (n - 16)) := by
  by_cases h : n < 32
  · simp only [statusWord, BitVec.getLsbD_or, BitVec.getLsbD_shiftLeft, BitVec.getLsbD_setWidth, getLsbD_activeBit]
    interval_cases n <;> simp
  · rw [BitVec.getLsbD_of_ge _ _ (by omega)]
    have : s.regId.getLsbD (n - 16) = false := BitVec.getLsbD_of_ge _ _ (by omega)
    simp [this]; omega

/-- Bit `n` of `CH_STATE` (R64). -/
theorem getLsbD_chStateWord (ch : Channel) (n : Nat) :
    (chStateWord ch).getLsbD n =
      (decide (n < 2) && ch.owner.code.getLsbD n || decide (n = 4) && ch.mode.code.getLsbD 0 ||
        decide (8 ≤ n) && decide (n < 10) && ch.relay.getLsbD (n - 8) || decide (n = 12) && ch.active) := by
  by_cases h : n < 32
  · simp only [chStateWord, BitVec.getLsbD_or, BitVec.getLsbD_shiftLeft, BitVec.getLsbD_setWidth, getLsbD_activeBit]
    interval_cases n <;> simp
  · rw [BitVec.getLsbD_of_ge _ _ (by omega)]
    have : ch.relay.getLsbD (n - 8) = false := BitVec.getLsbD_of_ge _ _ (by omega)
    simp [this]; omega

end Sys2Proof.Machine
end

