-- ==== Sys2Proof/Laws/Decode.lean ====
section
/-! SUPPORT. The laws of the decoder: the fields as bit slices, their bounds, and what each opcode decodes to. -/

namespace Sys2Proof

/-- A field is the number of its bit slice. -/
theorem field_eq_extractLsb' (w : Word) (lo len : Nat) : field w lo len = (w.extractLsb' lo len).toNat := by
  simp [field, Nat.shiftRight_eq_div_pow]

theorem field_lt (w : Word) (lo len : Nat) : field w lo len < 2 ^ len := Nat.mod_lt _ (Nat.two_pow_pos len)

theorem opField_lt (w : Word) : opField w < 16 := field_lt w 0 4
theorem chField_lt (w : Word) : chField w < 16 := field_lt w 4 4
theorem mdField_lt (w : Word) : mdField w < 4 := field_lt w 8 2
theorem idField_lt (w : Word) : idField w < 256 := field_lt w 16 8

section decode
variable {w : Word}

theorem decode_startWave (h : opField w = 1) : decode w = .ok (.startWave (chField w) (mdField w)) := by simp [decode, h]
theorem decode_stopWave (h : opField w = 2) : decode w = .ok (.stopWave (chField w)) := by simp [decode, h]
theorem decode_setManual (h : opField w = 3) : decode w = .ok (.setManual (chField w) (mdField w)) := by simp [decode, h]
theorem decode_enterReg (h : opField w = 4) : decode w = .ok (.enterReg (idField w)) := by simp [decode, h]
theorem decode_exitReg (h : opField w = 5) : decode w = .ok .exitReg := by simp [decode, h]
theorem decode_queryStatus (h : opField w = 6) : decode w = .ok .queryStatus := by simp [decode, h]

theorem decode_reserved (h : opField w = 0 ∨ 7 ≤ opField w) : decode w = .error (.reservedOpcode (opField w)) := by
  unfold decode
  split <;> first | omega | rfl

end decode

/-- The command word's fields, when each fits its place (R80). -/
theorem cmdWord_fields {op ch md id : Nat} (h0 : op < 16) (h1 : ch < 16) (h2 : md < 4) (h3 : id < 256) :
    opField (cmdWord op ch md id) = op ∧ chField (cmdWord op ch md id) = ch ∧ mdField (cmdWord op ch md id) = md ∧
      idField (cmdWord op ch md id) = id := by
  simp only [opField, chField, mdField, idField, field, cmdWord, BitVec.toNat_ofNat]
  omega

end Sys2Proof
end

