-- ==== Sys2Proof/Laws/PerInstr.lean ====
section
/-! SUPPORT. The per-instruction family `OpcodeNibble`: the low four bits of a well-formed instruction's word hold its opcode
(30_encoding.md R80, R83), one lemma per constructor of `Instr`. -/

namespace Sys2Proof.Laws.OpcodeNibble

/-- The OP field of the encoding of `i` is the opcode of `i`. -/
def Statement (i : Instr) : Prop := i.wellFormed = true → opField (encode i) = i.opcode

theorem startWave (ch md : Nat) : Statement (.startWave ch md) := by
  intro h
  simp only [Instr.wellFormed, chanFieldFits, modeFieldFits, Bool.and_eq_true, decide_eq_true_eq] at h
  simp only [opField, field, encode, cmdWord, Instr.opcode, BitVec.toNat_ofNat]
  omega

theorem stopWave (ch : Nat) : Statement (.stopWave ch) := by
  intro h
  simp only [Instr.wellFormed, chanFieldFits, decide_eq_true_eq] at h
  simp only [opField, field, encode, cmdWord, Instr.opcode, BitVec.toNat_ofNat]
  omega

theorem setManual (ch md : Nat) : Statement (.setManual ch md) := by
  intro h
  simp only [Instr.wellFormed, chanFieldFits, modeFieldFits, Bool.and_eq_true, decide_eq_true_eq] at h
  simp only [opField, field, encode, cmdWord, Instr.opcode, BitVec.toNat_ofNat]
  omega

theorem enterReg (id : Nat) : Statement (.enterReg id) := by
  intro h
  simp only [Instr.wellFormed, idFieldFits, decide_eq_true_eq] at h
  simp only [opField, field, encode, cmdWord, Instr.opcode, BitVec.toNat_ofNat]
  omega

theorem exitReg : Statement .exitReg := fun _ => rfl

theorem queryStatus : Statement .queryStatus := fun _ => rfl

end Sys2Proof.Laws.OpcodeNibble
end

