-- ==== Sys2Proof/Laws/Step.lean ====
section
/-! SUPPORT. What a clock cycle can do, said once: `write_result` for the bus write of a cycle and `step_result` for the whole
step. -/

namespace Sys2Proof.Machine

/-! ### The bus read of a cycle -/

section busRead
variable (inp : CycleIn) (s : State)

@[simp] theorem busRead_gmode : (busRead inp s).gmode = s.gmode := by unfold busRead; split <;> rfl
@[simp] theorem busRead_regId : (busRead inp s).regId = s.regId := by unfold busRead; split <;> rfl
@[simp] theorem busRead_updCnt : (busRead inp s).updCnt = s.updCnt := by unfold busRead; split <;> rfl
@[simp] theorem busRead_result : (busRead inp s).result = s.result := by unfold busRead; split <;> rfl
@[simp] theorem busRead_arg0 : (busRead inp s).arg0 = s.arg0 := by unfold busRead; split <;> rfl
@[simp] theorem busRead_arg1 : (busRead inp s).arg1 = s.arg1 := by unfold busRead; split <;> rfl
@[simp] theorem busRead_arg2 : (busRead inp s).arg2 = s.arg2 := by unfold busRead; split <;> rfl
@[simp] theorem busRead_events : (busRead inp s).events = s.events := by unfold busRead; split <;> rfl
@[simp] theorem busRead_draws : (busRead inp s).draws = s.draws := by unfold busRead; split <;> rfl
@[simp] theorem busRead_wasReset : (busRead inp s).wasReset = s.wasReset := by unfold busRead; split <;> rfl
@[simp] theorem busRead_inputs : (busRead inp s).inputs = s.inputs := by unfold busRead; split <;> rfl
@[simp] theorem busRead_chan (c : ChanId) : (busRead inp s).chan c = s.chan c := by
  unfold busRead; split <;> cases c <;> rfl

end busRead

/-- A bus read changes nothing but `rdata`. -/
theorem busRead_eq (inp : CycleIn) (s : State) :
    busRead inp s = { s with rdata := if inp.re && !inp.we then regRead inp.addr s else s.rdata } := by
  unfold busRead; split <;> rfl

theorem busRead_of_write {inp : CycleIn} (h : inp.we = true) (s : State) : busRead inp s = s := by simp [busRead, h]

/-! ### The bus write of a cycle -/

theorem CycleIn.command?_eq_some {inp : CycleIn} {i : Instr} (h : inp.command? = some i) :
    inp.we = true ∧ slotOf inp.addr = 0 ∧ decode inp.wdata = .ok i := by
  unfold CycleIn.command? at h
  split at h
  · next hc =>
    cases hd : decode inp.wdata with
    | ok j => rw [hd] at h; cases h; exact ⟨hc.1, hc.2, rfl⟩
    | error e => rw [hd] at h; cases h
  · cases h

theorem CycleIn.command?_of_slot {inp : CycleIn} (h : slotOf inp.addr ≠ 0) : inp.command? = none :=
  if_neg fun hc => h hc.2

theorem CycleIn.command?_of_no_write {inp : CycleIn} (h : inp.we = false) : inp.command? = none := by
  simp [CycleIn.command?, h]

/-- The outcomes of the bus write of a cycle: none; a command, with an outcome of its own; a reserved opcode; an operand register;
or a slot that ignores writes. -/
inductive WriteResult (inp : CycleIn) (s : State) : State → Prop where
  | noWrite (hw : inp.we = false) : WriteResult inp s s
  | command (i : Instr) {t : State} (h : inp.command? = some i) (hr : CommandResult i s t) : WriteResult inp s t
  | reservedOpcode (hw : inp.we = true) (hs : slotOf inp.addr = 0) (h : inp.command? = none) :
      WriteResult inp s (reject .invalidOpcode s)
  | arg0 (hw : inp.we = true) (hs : slotOf inp.addr = 1) : WriteResult inp s { s with arg0 := inp.wdata }
  | arg1 (hw : inp.we = true) (hs : slotOf inp.addr = 2) : WriteResult inp s { s with arg1 := inp.wdata }
  | arg2 (hw : inp.we = true) (hs : slotOf inp.addr = 3) : WriteResult inp s { s with arg2 := inp.wdata }
  | ignored (hw : inp.we = true) (hs : 4 ≤ slotOf inp.addr) : WriteResult inp s s

theorem executeCommand_of_decode {w : Word} {i : Instr} (h : decode w = .ok i) (s : State) :
    executeCommand w s = exec i s := by simp [executeCommand, h]

/-- Every bus write answers one of the outcomes. -/
theorem write_result (inp : CycleIn) (s : State) : ∃ t, busWrite inp s = .next t ∧ WriteResult inp s t := by
  unfold busWrite
  by_cases hw : inp.we = true
  · simp only [hw, ↓reduceIte]
    unfold regWrite
    split
    · next h0 =>
      unfold executeCommand
      cases hd : decode inp.wdata with
      | ok i =>
        obtain ⟨t, ht, hr⟩ := exec_result i s
        exact ⟨t, ht, .command i (by simp [CycleIn.command?, hw, h0, hd]) hr⟩
      | error e =>
        cases e
        exact ⟨_, rfl, .reservedOpcode hw h0 (by simp [CycleIn.command?, hw, h0, hd])⟩
    · next h1 => exact ⟨_, rfl, .arg0 hw h1⟩
    · next h2 => exact ⟨_, rfl, .arg1 hw h2⟩
    · next h3 => exact ⟨_, rfl, .arg2 hw h3⟩
    · next h0 h1 h2 h3 =>
      have h0 : slotOf inp.addr ≠ 0 := h0
      have h1 : slotOf inp.addr ≠ 1 := h1
      have h2 : slotOf inp.addr ≠ 2 := h2
      have h3 : slotOf inp.addr ≠ 3 := h3
      exact ⟨_, rfl, .ignored hw (by omega)⟩
  · exact ⟨s, by simp [hw], .noWrite (by simpa using hw)⟩

/-! ### The step -/

/-- The outcomes of a step: the reset state in a reset cycle; any registers in another cycle before the first reset; else the
bus write's outcome, then the tick. -/
inductive StepResult (s : State) : State → Prop where
  | reset (h : s.nextInput.rst = true) : StepResult s (resetCycle s.beginCycle)
  | unspecified (h : s.nextInput.rst = false) (hw : s.wasReset = false) : StepResult s (unspecifiedCycle s.beginCycle)
  | ran (h : s.nextInput.rst = false) (hw : s.wasReset = true) {u : State}
      (hu : WriteResult s.nextInput (busRead s.nextInput s.beginCycle) u) : StepResult s (tickIf s.nextInput u)

/-- Every step answers one of the outcomes. -/
theorem step_result (s : State) : ∃ t, step s = .next t ∧ StepResult s t := by
  unfold step cycle
  by_cases hr : s.nextInput.rst = true
  · exact ⟨_, by simp [hr], .reset hr⟩
  · by_cases hw : s.wasReset = true
    · obtain ⟨u, hu, h⟩ := write_result s.nextInput (busRead s.nextInput s.beginCycle)
      exact ⟨_, by simp [hr, hw, hu], .ran (by simpa using hr) hw h⟩
    · exact ⟨_, by simp [hr, hw], .unspecified (by simpa using hr) (by simpa using hw)⟩

/-- If a step answers `next t`, then `t` is one of its outcomes. -/
theorem result_of_step {s t : State} (h : step s = .next t) : StepResult s t := by
  obtain ⟨u, hu, hr⟩ := step_result s
  rw [hu] at h
  cases h
  exact hr

@[simp] theorem unspecifiedCycle_draws (s : State) : (unspecifiedCycle s).draws = s.draws := rfl
@[simp] theorem unspecifiedCycle_inputs (s : State) : (unspecifiedCycle s).inputs = s.inputs := rfl
@[simp] theorem unspecifiedCycle_wasReset (s : State) : (unspecifiedCycle s).wasReset = false := rfl
@[simp] theorem resetCycle_wasReset (s : State) : (resetCycle s).wasReset = true := by rw [resetCycle_eq]; rfl

@[simp] theorem tickIf_wasReset (inp : CycleIn) (s : State) : (tickIf inp s).wasReset = s.wasReset := by
  unfold tickIf; split <;> simp

theorem CommandResult.wasReset {i : Instr} {s t : State} (h : CommandResult i s t) : t.wasReset = s.wasReset := by
  cases h <;> simp

/-- The bus write of a cycle does not touch `wasReset`. -/
theorem WriteResult.wasReset {inp : CycleIn} {s t : State} (h : WriteResult inp s t) : t.wasReset = s.wasReset := by
  cases h with
  | command i _ hr => exact hr.wasReset
  | _ => rfl

/-! ### The ports of a block that has been reset -/

section ports
variable {s : State} (h : s.wasReset = true)
include h

theorem State.port_of_wasReset {α : Type} (free : Nat → α) (v : α) : s.port free v = v := if_pos h

theorem relayLine_of_wasReset (p : RelayPos) (c : ChanId) : relayLine p c s = decide ((s.chan c).relay = p.code) :=
  State.port_of_wasReset h _ _

theorem writeStrobe_of_wasReset (c : ChanId) (k : SinkKind) :
    writeStrobe c k s = s.events.any (Event.writesSink c k) := State.port_of_wasReset h _ _

theorem noticeValid_of_wasReset : noticeValid s = s.events.any fun e => e.noticeCode?.isSome :=
  State.port_of_wasReset h _ _

theorem noticeCode_of_wasReset :
    noticeCode s = (s.events.findSome? Event.noticeCode?).map ResultCode.code := State.port_of_wasReset h _ _

end ports

theorem State.nextInput_of_cons {s : State} {inp : CycleIn} {rest : List CycleIn} (h : s.inputs = inp :: rest) :
    s.nextInput = inp := by simp [State.nextInput, h]

theorem State.beginCycle_of_cons {s : State} {inp : CycleIn} {rest : List CycleIn} (h : s.inputs = inp :: rest) :
    s.beginCycle =
      { s with events := [], rdata := Config.freeRdata s.draws, draws := s.draws + 1, inputs := rest } := by
  simp [State.beginCycle, h]

end Sys2Proof.Machine
end

