-- ==== Sys2Proof/Tests/Slice0.lean ====
section
/-! SUPPORT. Tests of the model: the checks of WellFormed, command words written out from 30_encoding.md, at most two single
steps per command with the results of 95_test_vectors.md, and for every statement with hypotheses a state and operands that meet
them together. -/

namespace Sys2Proof.Tests

open Sys2Proof.Machine

/-! ### Small states -/

/-- Reset, then the operand registers. -/
def idle (a0 a1 a2 : Word) : State := { State.reset with events := [], arg0 := a0, arg1 := a1, arg2 := a2 }

/-- An active channel at a phase and an elapsed count. -/
def wave (m : Mode) (amp : Nat) (period : Nat) (center : Int) (phase elapsed : Nat) : Channel :=
  { Channel.reset with
    owner := .wave, mode := m, relay := (pathOf m).code, amp := BitVec.ofNat 31 amp, period := BitVec.ofNat 16 period,
    center := BitVec.ofInt 32 center, phase := BitVec.ofNat 16 phase, elapsed := BitVec.ofNat 32 elapsed }

/-- Channel 2 runs, in current mode; the operand registers hold `a0`, `a1`, `a2`. -/
def running (a0 a1 a2 : Word) : State := { idle a0 a1 a2 with ch2 := wave .c 100 1000 500 7 7 }

/-- The registers of REGISTER mode, with `reg_id` 17. -/
def registered : State :=
  { (idle 0 0 0).mapChans (fun ch => { ch with owner := .reg }) with gmode := .register, regId := 17 }

/-- The state with one cycle's inputs to come. -/
def coming (inp : CycleIn) (s : State) : State := { s with inputs := [inp] }

/-- The state an outcome holds; `s` itself if it holds none. -/
def after (s : State) (o : Host.Outcome State Fault Refusal) : State :=
  match o with
  | .next t => t
  | .fault _ => s
  | .refused _ => s

/-- The state after one cycle with inputs `inp`. -/
def run (inp : CycleIn) (s : State) : State := after s (step (coming inp s))

/-! ### WellFormed: every check refuses an ill-formed term -/

theorem test_wf_accepts :
    (Instr.startWave 15 3).wellFormed = true ∧ (Instr.stopWave 0).wellFormed = true ∧
      (Instr.setManual 15 3).wellFormed = true ∧ (Instr.enterReg 255).wellFormed = true ∧
      Instr.exitReg.wellFormed = true ∧ Instr.queryStatus.wellFormed = true := by decide

theorem test_wf_refuses_channel :
    (Instr.startWave 16 0).wellFormed = false ∧ (Instr.stopWave 16).wellFormed = false ∧
      (Instr.setManual 16 0).wellFormed = false := by decide

theorem test_wf_refuses_mode :
    (Instr.startWave 1 4).wellFormed = false ∧ (Instr.setManual 1 4).wellFormed = false := by decide

theorem test_wf_refuses_identifier : (Instr.enterReg 256).wellFormed = false := by decide

/-! ### Decode: words written out bit by bit from 30_encoding.md R80, fields in the order reserved, ID, reserved, MD, CH, OP -/

theorem test_decode_startWave :
    decode (0b00000000#8 ++ 0b00000000#8 ++ 0b000000#6 ++ 0b01#2 ++ 0b0010#4 ++ 0b0001#4) = .ok (.startWave 2 1) := by rfl

theorem test_decode_stopWave :
    decode (0b00000000#8 ++ 0b00000000#8 ++ 0b000000#6 ++ 0b00#2 ++ 0b0011#4 ++ 0b0010#4) = .ok (.stopWave 3) := by rfl

theorem test_decode_setManual :
    decode (0b00000000#8 ++ 0b00000000#8 ++ 0b000000#6 ++ 0b01#2 ++ 0b0011#4 ++ 0b0011#4) = .ok (.setManual 3 1) := by rfl

theorem test_decode_enterReg :
    decode (0b00000000#8 ++ 0b11110111#8 ++ 0b000000#6 ++ 0b00#2 ++ 0b0000#4 ++ 0b0100#4) = .ok (.enterReg 247) := by rfl

theorem test_decode_exitReg :
    decode (0b00000000#8 ++ 0b00000000#8 ++ 0b000000#6 ++ 0b00#2 ++ 0b0000#4 ++ 0b0101#4) = .ok .exitReg := by rfl

theorem test_decode_queryStatus :
    decode (0b00000000#8 ++ 0b00000000#8 ++ 0b000000#6 ++ 0b00#2 ++ 0b0000#4 ++ 0b0110#4) = .ok .queryStatus := by rfl

/-- R90: opcodes 0 and 7 to 15 are refused by name; R89: set reserved bits do not matter. -/
theorem test_decode_reserved :
    decode 0x00000000 = .error (.reservedOpcode 0) ∧ decode 0x00000007 = .error (.reservedOpcode 7) ∧
      decode 0xFFFFFFFF = .error (.reservedOpcode 15) ∧ decode 0xFFFFFF05 = .ok .exitReg := ⟨rfl, rfl, rfl, rfl⟩

/-- R95: the words of the encoding examples. -/
theorem test_encode_examples :
    encode (.startWave 1 0) = 0x00000011 ∧ encode (.setManual 3 1) = 0x00000133 ∧ encode (.enterReg 17) = 0x00110004 ∧
      encode (.stopWave 0) = 0x00000002 ∧ encode .exitReg = 0x00000005 ∧ encode .queryStatus = 0x00000006 := by decide

theorem test_decodeTableWord :
    decodeTableWord 32 0x00000001 = some (.startWave 0 0) ∧ decodeTableWord 32 0x00F70004 = some (.enterReg 247) ∧
      decodeTableWord 8 0x00F70004 = some (.enterReg 0) ∧ decodeTableWord 32 0x00000008 = none := ⟨rfl, rfl, rfl, rfl⟩

/-- `step` runs a word placed by `withFetchWord` as the first command after reset: EXIT_REG, rejected in ANALOG (V8). -/
theorem test_withFetchWord :
    (after State.reset (step (State.reset.withFetchWord 32 0x00000005))).events = [.notice .wrongGlobalMode] := by decide

/-- The pseudo-instruction `SET 1, C, 25001` is two bus writes (R94). -/
theorem test_withProgram :
    (State.reset.withProgram [.set 1 .c 25001]).inputs =
      [CycleIn.write 0x04 0x000061A9, CycleIn.write 0x00 0x00000113] := by decide

/-! ### One step of each command (95_test_vectors.md V5 to V9) -/

/-- V5: `START 1, V, 5000, 1000, 5001`. -/
theorem test_start_warns :
    let t := run (CycleIn.write 0x00 0x00000011) (idle 5000 1000 5001)
    t.events = [.relaySet .c1 .rv, .sinkWrite .c1 .v 5001, .notice .rangeWarning] ∧ t.result = 1 ∧ t.ch1.owner = .wave ∧
      t.ch1.outV = 5001 ∧ t.ch1.outI = 0 := by decide

/-- V5: `START 1, V, 0xFFFFFFFF, 999, 5000`: the period is checked before the amplitude. -/
theorem test_start_check_order :
    (run (CycleIn.write 0x00 0x00000011) (idle 0xFFFFFFFF 999 5000)).events = [.notice .invalidPeriod] := by decide

/-- V6: `START 2, C, 100, 1000, 500`, then `STOP 2`: the relay and the parameters are kept. -/
theorem test_stop :
    let t := run (CycleIn.write 0x00 0x00000022) (running 0 0 0)
    t.events = [.sinkWrite .c2 .i 0] ∧ t.ch2.owner = .none ∧ t.ch2.relay = 2 ∧ t.ch2.amp = 100 := by decide

/-- V6: `STOP 15`. -/
theorem test_stop_no_channel :
    (run (CycleIn.write 0x00 0x000000F2) (running 0 0 0)).events = [.notice .invalidChannel] := by decide

/-- V7: `SET 2, V, 5000` over a running current waveform. -/
theorem test_set_over_wave :
    let t := run (CycleIn.write 0x00 0x00000023) (running 5000 0 0)
    t.events = [.sinkWrite .c2 .i 0, .relaySet .c2 .rv, .sinkWrite .c2 .v 5000] ∧ t.ch2.manual = 5000 := by decide

/-- V7: `SET 2, V, 10001` is rejected and leaves the waveform running. -/
theorem test_set_out_of_range :
    let t := run (CycleIn.write 0x00 0x00000023) (running 10001 0 0)
    t.events = [.notice .valueOutOfRange] ∧ t.ch2.active = true := by decide

/-- E7: `ENTER 17` while channel 2 runs in current mode; then `STATUS` reads 0x00110100 and `CH_STATE(2)` 3. -/
theorem test_enter :
    let t := run (CycleIn.write 0x00 0x00110004) (running 0 0 0)
    t.events =
        [.sinkWrite .c2 .i 0, .sinkWrite .c1 .v 0, .sinkWrite .c1 .i 0, .sinkWrite .c2 .v 0, .sinkWrite .c2 .i 0,
          .sinkWrite .c3 .v 0, .sinkWrite .c3 .i 0, .relaySet .c1 .off, .relaySet .c2 .off, .relaySet .c3 .off] ∧
      regRead 0x10 t = 0x00110100 ∧ regRead 0x80 t = 0x00000003 := by decide

/-- E11: `ENTER 248`. -/
theorem test_enter_identifier :
    let t := run (CycleIn.write 0x00 0x00F80004) (idle 0 0 0)
    t.events = [.notice .invalidIdentifier] ∧ t.gmode = .analog ∧ t.regId = 0 := by decide

/-- V8: `EXIT` from REGISTER emits nothing and keeps `reg_id`. -/
theorem test_exit :
    let t := run (CycleIn.write 0x00 0x00000005) registered
    t.events = [] ∧ t.gmode = .analog ∧ t.ch3.owner = .none ∧ t.regId = 17 ∧ t.result = 0 := by decide

/-- The example of R190: channel 1 after 2500 ticks of period 2000. -/
theorem test_query :
    let t := run (CycleIn.write 0x00 0x00000006) { idle 0 0 0 with ch1 := wave .v 1000 2000 3000 500 2500 }
    regRead 0x60 t = 1 ∧ regRead 0x64 t = 1000 ∧ regRead 0x70 t = 2500 ∧ regRead 0x74 t = 0x00004000 ∧ t.events = [] := by
  decide

/-- V9, the last rows: QUERY_STATUS runs in REGISTER too, and every flag reads 0. -/
theorem test_query_register :
    let t := run (CycleIn.write 0x00 0x00000006) registered
    t.events = [] ∧ t.result = 0 ∧ regRead 0x60 t = 0 := by decide

/-! ### Ticks, reads, reset -/

/-- V4: the update event 150 ticks after a start writes 6613. -/
theorem test_tick_update :
    (run CycleIn.oneTick { idle 0 0 0 with updCnt := 249, ch1 := wave .v 2000 1000 5000 149 149 }).events =
      [.sinkWrite .c1 .v 6613] := by decide

/-- V4, the elapsed wrap: `elapsed = 0xFFFFFFFF` and `phase = 999` of period 1000. -/
theorem test_tick_wraps :
    let t := run CycleIn.oneTick { idle 0 0 0 with ch1 := wave .v 2000 1000 5000 999 0xFFFFFFFF }
    t.ch1.phase = 0 ∧ t.ch1.elapsed = 0 ∧ t.updCnt = 1 ∧ t.events = [] := by decide

/-- V4: a START_WAVE in a tick cycle ends it with phase 1 and elapsed 1. -/
theorem test_start_in_tick_cycle :
    let t := run { CycleIn.write 0x00 0x00000011 with tick := true } (idle 1000 1000 5000)
    t.events = [.relaySet .c1 .rv, .sinkWrite .c1 .v 5000] ∧ t.ch1.phase = 1 ∧ t.ch1.elapsed = 1 := by decide

/-- A cycle with a tick and no bus write runs the tick (R112). -/
theorem test_tick_alone :
    let t := run CycleIn.oneTick (running 0 0 0)
    t.ch2.phase = 8 ∧ t.ch2.elapsed = 8 ∧ t.updCnt = 1 := by decide

/-- A write to an ignored slot, and a cycle with no port high, change no register and emit nothing (R62). -/
theorem test_idle_cycle :
    let s := running 0 0 0
    run (CycleIn.write 0x10 1) s = { run CycleIn.idle s with rdata := (run (CycleIn.write 0x10 1) s).rdata } ∧
      (run CycleIn.idle s).ch2 = s.ch2 ∧ (run CycleIn.idle s).events = [] := ⟨rfl, rfl, rfl⟩

/-- V3: the floor shift, `1000 · (−23170) >>> 15 = −708`. -/
theorem test_sample_floor : (sample (wave .v 1000 1000 5000 625 625)).toNat = 4292 := by decide

/-- V9: `period = 3000`, `phase = 2999`. -/
theorem test_progress_last_tick : (progress (wave .v 0 3000 0 2999 2999)).toNat = 65514 := by decide

/-- A read in a tick cycle gives the phase from before the tick (R65, R245). -/
theorem test_read_before_tick :
    (run { CycleIn.read 0x9C with tick := true } (running 0 0 0)).rdata = 7 := by decide

/-- R240, R241: a reset cycle ignores the command and the tick of its cycle. -/
theorem test_reset_overrides :
    let t := run { CycleIn.write 0x00 0x00110004 with rst := true, tick := true } (running 0 0 0)
    t.gmode = .analog ∧ t.ch2 = Channel.reset ∧ t.updCnt = 0 ∧ t.events = State.reset.events := by decide

/-! ### The hypotheses of the statements can be met

One theorem per statement that has hypotheses, at a boundary value of each clause. -/

theorem test_meets_DecodeOfEncodeIsIdentity :
    (Instr.startWave 15 3).wellFormed = true ∧ (Instr.enterReg 255).wellFormed = true := by decide

theorem test_meets_EncodeOfDecodeKeepsUsedBits : decode 0xFFFFFFF1 = .ok (.startWave 15 3) := rfl

theorem test_meets_IgnoredBitsChangeNothing :
    let w : Word := 0xFF11FC04
    let w' : Word := 0x00110004
    w ≠ w' ∧ w.extractLsb' 0 10 = w'.extractLsb' 0 10 ∧
      (w.extractLsb' 0 4 = 4#4 → w.extractLsb' 16 8 = w'.extractLsb' 16 8) := by decide

theorem test_meets_ReservedOpcodeIsRejected :
    ((0x00000010 : Word).extractLsb' 0 4).toNat = 0 ∧ 7 ≤ ((0x00000007 : Word).extractLsb' 0 4).toNat ∧
      7 ≤ ((0x0000000F : Word).extractLsb' 0 4).toNat := by decide

/-- The operands at both ends of their ranges. -/
theorem test_meets_PseudoInstructionsExpand :
    15 < 16 ∧ (HostMode.raw 3).number < 4 ∧ 255 < 256 ∧
      (∀ x ∈ [-2 ^ 31, 2 ^ 32 - 1, (0 : Int)], -2 ^ 31 ≤ x ∧ x < 2 ^ 32) ∧ (0 : Int) ≤ 2 ^ 32 - 1 ∧
      (2 : Int) ^ 32 - 1 < 2 ^ 32 := by decide

/-- A command write beside a tick, at the last byte of `CMD`; a reserved opcode and an ignored slot; a read beside a tick; and
the idle cycle. -/
theorem test_meets_StepRunsDecodedCommand :
    let inp := { CycleIn.write 0x03 0x00110004 with tick := true }
    (coming inp (running 0 0 0)).wasReset = true ∧ (coming inp (running 0 0 0)).inputs = inp :: [] ∧ inp.rst = false ∧
      inp.we = true ∧ inp.addr.toNat / 4 = 0 ∧ decode inp.wdata = .ok (.enterReg 17) ∧
      (CycleIn.write 0x00 0x00000007).we = true ∧ (CycleIn.write 0xFF 1).we = true ∧
      ({ CycleIn.read 0x9C with tick := true } : CycleIn).we = false ∧
      (CycleIn.idle.rst = false ∧ CycleIn.idle.we = false ∧ CycleIn.idle.re = false ∧ CycleIn.idle.tick = false) :=
  ⟨rfl, rfl, rfl, rfl, rfl, rfl, rfl, rfl, rfl, rfl, rfl, rfl, rfl⟩

theorem test_meets_WriteComesBeforeTickInACycle :
    let inp := { CycleIn.write 0x00 0x00000021 with tick := true }
    let s := coming inp (running 5000 1000 5000)
    let b := s.beginCycle
    s.wasReset = true ∧ s.nextInput = inp ∧ inp.rst = false ∧ inp.tick = true ∧ inp.we = true ∧ s.gmode = .analog ∧
      (after b (regWrite inp.addr inp.wdata b)).result = 0 ∧ (after b (exec (.startWave 2 0) b)).result = 0 ∧
      (after b (exec (.stopWave 0) b)).ch2.owner = .none ∧ (after b (exec (.stopWave 2) b)).ch2.owner = .none ∧
      (after b (exec (.setManual 2 0) b)).result = 0 ∧ (after b (exec (.enterReg 1) b)).gmode = .register := by decide

theorem test_meets_WriteComesBeforeTickInACycle_read :
    let inp := { CycleIn.read 0x9C with tick := true }
    (coming inp (running 0 0 0)).wasReset = true ∧ (coming inp (running 0 0 0)).nextInput = inp ∧ inp.rst = false ∧
      inp.tick = true ∧ inp.re = true ∧ inp.we = false := by decide

theorem test_meets_ResetOverridesEverything :
    let inp := { CycleIn.write 0x00 0x00110004 with rst := true, tick := true }
    (coming inp (running 0 0 0)).inputs = inp :: [] ∧ inp.rst = true := by decide

theorem test_meets_BusReadReturnsTheSlot :
    let inp := CycleIn.read 0xFF
    (coming inp (running 0 0 0)).wasReset = true ∧ (coming inp (running 0 0 0)).inputs = inp :: [] ∧ inp.rst = false ∧
      inp.re = true ∧ inp.we = false ∧ inp.tick = false := by decide

theorem test_meets_DoubleStrobeIsPlainWrite :
    (running 0 0 0).wasReset = true ∧ (CycleIn.write 0x00 0x00110004).we = true ∧
      ({ CycleIn.write 0x00 0x00110004 with rst := true } : CycleIn).rst = true := ⟨rfl, rfl, rfl⟩

theorem test_meets_GlobalRegisterMap :
    (0x18 ≤ (0x18 : Addr).toNat ∧ (0x18 : Addr).toNat < 0x40) ∧ (0x18 ≤ (0x3F : Addr).toNat ∧ (0x3F : Addr).toNat < 0x40) :=
  by decide

theorem test_meets_ChannelRegisterMap : 0x3F < 0x40 := by decide

/-- The bit numbers the layouts leave out, at the edges of the listed fields. -/
theorem test_meets_StatusFieldLayouts :
    (∀ n ∈ [4, 7, 9, 11, 15, 24, 31], 4 ≤ n ∧ n ≠ 8 ∧ n ≠ 12 ∧ n ≠ 13 ∧ n ≠ 14 ∧ (n < 16 ∨ 24 ≤ n)) ∧
      (∀ n ∈ [2, 3, 5, 7, 10, 11, 13, 31], 2 ≤ n ∧ n ≠ 4 ∧ n ≠ 8 ∧ n ≠ 9 ∧ n ≠ 12) ∧ 2 ≤ 31 := by decide

theorem test_meets_ReservedSlotsReadZero :
    (6 ≤ (0x18 : Addr).toNat / 4 ∧ (0x18 : Addr).toNat / 4 ≤ 15) ∧ (6 ≤ (0x3C : Addr).toNat / 4 ∧ (0x3C : Addr).toNat / 4 ≤ 15) ∧
      (0xFF : Addr).toNat / 4 % 16 = 15 ∧ 4 ≤ (0x10 : Addr).toNat / 4 := by decide

theorem test_meets_LowAddressBitsIgnored : (0x50 : Addr).extractLsb' 2 6 = (0x53 : Addr).extractLsb' 2 6 := by decide

theorem test_meets_StartWaveEffect :
    (0xFFFFFD21 : Word).extractLsb' 0 4 = 1#4 ∧ registered.gmode = .register ∧ (running 0 0 0).gmode = .analog ∧
      (4 = 0 ∨ 3 < 4) ∧ 1 < 2 ∧ (idle 0 999 0).arg1.toNat < 1000 ∧ 60000 < (idle 0 60001 0).arg1.toNat ∧
      1000 ≤ (idle 0xFFFFFFFF 1000 0).arg1.toNat ∧ (idle 0xFFFFFFFF 1000 0).arg1.toNat ≤ 60000 ∧
      (idle 0xFFFFFFFF 1000 0).arg0.toInt < 0 ∧ (idle 0x7FFFFFFF 60000 0).arg1.toNat ≤ 60000 ∧
      0 ≤ (idle 0x7FFFFFFF 60000 0).arg0.toInt ∧ 0 ≤ (idle 0 60000 0).arg0.toInt := by decide

/-- The last clause's two outcomes: with and without the range warning (V5). -/
theorem test_meets_StartWaveEffect_warning :
    ((idle 5001 1000 5000).arg2.toInt + (idle 5001 1000 5000).arg0.toInt > 10000) ∧
      ¬ ((idle 5000 1000 5000).arg2.toInt + (idle 5000 1000 5000).arg0.toInt > 10000 ∨
          (idle 5000 1000 5000).arg2.toInt - (idle 5000 1000 5000).arg0.toInt < 0) := by decide

theorem test_meets_StartWaveAcceptance_and_ReadsBack :
    let s := idle 0x7FFFFFFF 60000 0x80000000
    s.gmode = .analog ∧ 1000 ≤ s.arg1.toNat ∧ s.arg1.toNat ≤ 60000 ∧ 0 ≤ s.arg0.toInt ∧
      (after s (exec (.startWave 3 1) s)).result = 1 := by decide

theorem test_meets_StopWaveEffect :
    (0xFFFFFFF2 : Word).extractLsb' 0 4 = 2#4 ∧ registered.gmode = .register ∧ (running 0 0 0).gmode = .analog ∧ 3 < 4 ∧
      3 ≤ 3 ∧ ((running 0 0 0).chan .c2).owner = .wave ∧ (0 = 0 ∨ 0 = ChanId.c2.number) ∧
      ¬ ((2 = 0 ∨ 2 = ChanId.c3.number) ∧ ((running 0 0 0).chan .c3).owner = .wave) := by decide

theorem test_meets_RepeatedCommandsChangeNothingMore :
    let s := running 5000 0 0
    (s.gmode = .analog ∧ 2 ≤ 3 ∧ (after registered (exec (.stopWave 2) s)).ch2.owner = .none) ∧
      (after registered (exec (.setManual 2 0) s)).result = 0 ∧ (after registered (exec .queryStatus s)).result = 0 ∧
      1 ≤ (0x04 : Addr).toNat / 4 ∧ (after registered (regWrite 0x04 9 s)).arg0 = 9 := by decide

theorem test_meets_SetManualEffect :
    (0xFFFFFFF3 : Word).extractLsb' 0 4 = 3#4 ∧ registered.gmode = .register ∧ (running 0 0 0).gmode = .analog ∧
      (4 = 0 ∨ 3 < 4) ∧ 1 < 2 ∧ (running 0xFFFFFFFF 0 0).arg0.toInt < 0 ∧ 10000 < (running 10001 0 0).arg0.toInt ∧
      25000 < (running 25001 0 0).arg0.toInt ∧ 0 ≤ (running 10000 0 0).arg0.toInt ∧
      (running 10000 0 0).arg0.toInt ≤ 10000 ∧ (running 25000 0 0).arg0.toInt ≤ 25000 := by decide

theorem test_meets_EnterRegEffect :
    (0xFFFFFFF4 : Word).extractLsb' 0 4 = 4#4 ∧ registered.gmode = .register ∧ (running 0 0 0).gmode = .analog ∧
      (0 < 1 ∨ 247 < 0) ∧ (248 < 1 ∨ 247 < 248) ∧ (1 ≤ 1 ∧ 1 ≤ 247) ∧ (1 ≤ 247 ∧ 247 ≤ 247) := by decide

theorem test_meets_ExitRegEffect :
    (0xFFFFFFF5 : Word).extractLsb' 0 4 = 5#4 ∧ (running 0 0 0).gmode = .analog ∧ registered.gmode = .register := by decide

theorem test_meets_QueryStatusEffect :
    (0xFFFFFFF6 : Word).extractLsb' 0 4 = 6#4 ∧ ((running 0 0 0).chan .c2).owner = .wave ∧
      (registered.chan .c1).owner ≠ .wave := by decide

theorem test_meets_ProgressIsPhaseFraction :
    let s : State := { idle 0 0 0 with ch1 := wave .v 0 60000 0 0 0 }
    (wave .v 0 60000 0 59999 59999).phase.toNat < (wave .v 0 60000 0 59999 59999).period.toNat ∧
      (s.chan .c1).active = true ∧ (s.chan .c1).phase = 0 ∧ (s.chan .c1).elapsed = 0 ∧ 0 < (s.chan .c1).period.toNat ∧
      4294967295 < 2 ^ 32 := by decide

theorem test_meets_ResultCodesInCheckOrder : ((0x00000010 : Word).extractLsb' 0 4).toNat = 0 := by decide

/-- A warned START_WAVE, an accepted STOP_WAVE, a write of `arg0`; then a step for each clause: with a warned command and without
a tick, with an accepted one and a tick, a bus read, a reset. -/
theorem test_meets_AtMostOneNotice :
    let s := running 5001 1000 5000
    (after s (executeCommand 0x00000011 s)).result = 1 ∧ (after registered (executeCommand 0x00000022 s)).result = 0 ∧
      (0x04 : Addr).toNat / 4 ≠ 0 ∧ (after s (regWrite 0x04 9 s)).arg0 = 9 ∧ (coming CycleIn.oneTick s).wasReset = true ∧
      (run (CycleIn.write 0x00 0x00000011) s).result = 1 ∧
      (run { CycleIn.write 0x00 0x00000022 with tick := true } s).result = 0 ∧ (CycleIn.read 0x04).we = false ∧
      (coming CycleIn.reset s).nextInput.rst = true := by decide

/-- A warned START_WAVE beside a tick that expires the divider: the command's events, its notice, then the tick's sink write. -/
theorem test_meets_AtMostOneNotice_tick :
    let inp := { CycleIn.write 0x00 0x00000011 with tick := true }
    let s := { coming inp (idle 5001 1000 5000) with updCnt := 249 }
    let t := after s (step s)
    s.wasReset = true ∧ s.nextInput.rst = false ∧ s.nextInput.tick = true ∧ t.result = 1 ∧
      (t.events.map Event.isNotice) = [false, false, true, false] := by decide

/-- Channel 1 is not named by these commands, and each changes a channel it names. -/
theorem test_meets_OtherChannelsUntouched :
    let s := running 5000 1000 5000
    2 ≠ ChanId.c1.number ∧ (after s (exec (.startWave 2 0) s)).ch2.mode = .v ∧
      (2 ≠ 0 ∧ 2 ≠ ChanId.c1.number) ∧ (after s (exec (.stopWave 2) s)).ch2.owner = .none ∧
      (after s (exec (.setManual 2 0) s)).ch2.owner = .manual := by decide

/-- Every command answers a next state here that differs from the state before. -/
theorem test_meets_CommandsWriteOnlyTheirRegisters :
    let s := running 5000 1000 5000
    (after s (exec (.startWave 1 0) s)).ch1.owner = .wave ∧ (after s (exec (.stopWave 0) s)).ch2.owner = .none ∧
      (after s (exec (.setManual 3 1) s)).ch3.owner = .manual ∧ (after s (exec (.enterReg 247) s)).regId = 247 ∧
      (after registered (exec .exitReg registered)).gmode = .analog ∧
      (after s (exec .queryStatus s)).ch2.snap.period = 1000 := by decide

/-- The changes of owner that exist, one each. -/
theorem test_meets_OwnershipChanges :
    let s := running 5000 1000 5000
    (after s (exec (.startWave 1 0) s)).ch1.owner = .wave ∧ (after s (exec (.stopWave 2) s)).ch2.owner = .none ∧
      (after s (exec (.setManual 2 0) s)).ch2.owner = .manual ∧ (after s (exec (.enterReg 1) s)).ch2.owner = .reg ∧
      (after registered (exec .exitReg registered)).ch2.owner = .none := by decide

/-- The EXIT_REG clause: `registered` meets the invariants (`test_invariants_registered`) and its EXIT_REG is accepted. -/
theorem test_meets_OwnershipChanges_exit :
    (after registered (exec .exitReg registered)).result = 0 ∧ registered.ch2.owner = .reg := by decide

theorem test_meets_UnlistedOperandsAreIgnored :
    let s := running 5000 1000 5000
    (Instr.stopWave 2).opcode ≠ 1 ∧ (Instr.setManual 2 0).opcode ≠ 1 ∧
      ((Instr.setManual 2 0).opcode = 3 → (5000 : Word) = s.arg0) ∧ (after s (exec (.setManual 2 0) s)).result = 0 ∧
      (after s (exec (.stopWave 2) s)).ch2.owner = .none := by decide

/-- Each of the three ways the mode changes: a reset, an ENTER_REG, an EXIT_REG. -/
theorem test_meets_OnlyEnterAndExitChangeMode :
    registered.wasReset = true ∧ (run CycleIn.reset registered).gmode = .analog ∧
      (run (CycleIn.write 0x00 0x00F70004) (running 0 0 0)).gmode = .register ∧
      (CycleIn.write 0x00 0x00F70004).command? = some (.enterReg 247) ∧
      (run (CycleIn.write 0x00 0x00000005) registered).gmode = .analog ∧
      (CycleIn.write 0x00 0x00000005).command? = some .exitReg := by decide

/-- A step with events that writes a sink twice. -/
theorem test_meets_OutputsFollowTheEventList :
    (running 25000 0 0).wasReset = true ∧ (run (CycleIn.write 0x00 0x00000123) (running 25000 0 0)).events =
      [.sinkWrite .c2 .i 0, .relaySet .c2 .rc, .sinkWrite .c2 .i 25000] := by decide

/-- A step with strobes, a relay line and a notice. -/
theorem test_meets_PortsFollowTheStep :
    let t := run (CycleIn.write 0x00 0x00000011) (idle 5001 1000 5000)
    t.wasReset = true ∧ writeStrobe .c1 .v t = true ∧ writeStrobe .c1 .i t = false ∧ rlyV .c1 t = true ∧ rlyC .c1 t = false ∧
      noticeValid t = true ∧ noticeCode t = some 1 ∧ (coming CycleIn.reset t).nextInput.rst = true := by decide

/-- The tick with and without an update event; the divider at both ends of its range. -/
theorem test_meets_TickEffect :
    let s := running 0 0 0
    ((s.chan .c1).owner ≠ .wave ∧ (s.chan .c2).owner = .wave) ∧ ¬ (s.updCnt.toNat = 249 ∧ s.gmode = .analog) ∧
      (({ s with updCnt := 249 } : State).updCnt.toNat = 249 ∧ ({ s with updCnt := 249 } : State).gmode = .analog) ∧
      ({ s with updCnt := 249 } : State).updCnt.toNat ≤ 249 ∧
      ((coming CycleIn.oneTick s).wasReset = true ∧ CycleIn.oneTick.rst = false ∧ CycleIn.oneTick.we = false ∧
        (coming CycleIn.oneTick s).nextInput.tick = true) := by decide

theorem test_meets_PhaseAdvancesOnTick :
    let s : State := { idle 0 0 0 with ch1 := wave .v 0 1000 0 0 0, ch2 := wave .v 0 1000 0 999 999 }
    (s.chan .c3).owner ≠ .wave ∧ (s.chan .c2).owner = .wave ∧ (s.chan .c2).phase.toNat + 1 = (s.chan .c2).period.toNat ∧
      (s.chan .c1).owner = .wave ∧ (s.chan .c1).phase = 0 ∧ 0 < (s.chan .c1).period.toNat := by decide

theorem test_meets_ElapsedCountsTicks :
    ((running 0 0 0).chan .c2).owner = .wave ∧ ((running 0 0 0).chan .c1).owner ≠ .wave := by decide

/-- The last phase of the longest period; also for the bound of the ideal sine. -/
theorem test_meets_AngleQuantisesThePhase :
    (wave .v 0 60000 0 59999 59999).phase.toNat < (wave .v 0 60000 0 59999 59999).period.toNat := by decide

theorem test_meets_TableAndQuadrantValues : 255 < 256 := by decide

theorem test_meets_TableIsTheRoundedSine : 256 ≤ 256 ∧ 255 < 256 := by decide

theorem test_meets_RawApproximatesTheIdealSine :
    (wave .c 2147483647 1000 0 750 750).phase.toNat < (wave .c 2147483647 1000 0 750 750).period.toNat := by decide

theorem test_meets_WaveformIsExactlyPeriodic :
    let s : State := { idle 0 0 0 with ch1 := wave .v 0 1000 0 0 0 }
    ((s.chan .c1).owner = .wave ∧ (s.chan .c1).phase = 0 ∧ 0 < (s.chan .c1).period.toNat) ∧ ((running 0 0 0).chan .c2).active = true ∧
      ((running 0 0 0).chan .c2).phase.toNat < ((running 0 0 0).chan .c2).period.toNat := by decide

theorem test_meets_StartAndQuarterPeriodSamples :
    let s : State := { idle 0 0 0 with ch1 := wave .v 2000 1000 5000 0 0 }
    (s.chan .c1).active = true ∧ (s.chan .c1).phase = 0 ∧ 0 < (s.chan .c1).period.toNat ∧
      (s.chan .c1).period.toNat % 4 = 0 := by decide

/-- The invariants hold in a state with a running channel, whatever inputs are to come. -/
theorem test_invariants_running (inputs : List CycleIn) : Invariants { running 0 0 0 with inputs := inputs } where
  hasBeenReset := rfl
  activeOnlyInAnalog := fun _ _ => rfl
  registerIffAllReg := ⟨(fun h => by cases h), (fun h => by cases h .c1)⟩
  registerIsSafe := fun h => by cases h
  activePhaseInPeriod := by
    intro c h
    cases c
    · cases h
    · change 1000 ≤ (wave .c 100 1000 500 7 7).period.toNat ∧ (wave .c 100 1000 500 7 7).period.toNat ≤ 60000 ∧
        (wave .c 100 1000 500 7 7).phase.toNat < (wave .c 100 1000 500 7 7).period.toNat
      decide
    · cases h
  activeOnPath := by intro c h; cases c <;> first | rfl | cases h
  manualOnPath := by intro c h; cases c <;> cases h
  sinksInRange := by intro c; cases c <;> exact ⟨Nat.zero_le _, Nat.zero_le _⟩
  relayNotThree := by intro c h; cases c <;> cases h
  dividerInRange := Nat.zero_le _

/-- The same state in REGISTER mode: the invariants hold, every output is safe, and a step runs. -/
theorem test_meets_EveryStepKeepsInvariants :
    (∃ s t, Invariants s ∧ step s = .next t ∧ t.ch2.phase = 8) :=
  ⟨coming CycleIn.oneTick (running 0 0 0), run CycleIn.oneTick (running 0 0 0), test_invariants_running _, rfl, by decide⟩

theorem test_invariants_registered : Invariants registered where
  hasBeenReset := rfl
  activeOnlyInAnalog := by intro c h; cases c <;> cases h
  registerIffAllReg := ⟨(fun _ c => by cases c <;> rfl), fun _ => rfl⟩
  registerIsSafe := by intro _ c; cases c <;> exact ⟨rfl, rfl, rfl, rfl⟩
  activePhaseInPeriod := by intro c h; cases c <;> cases h
  activeOnPath := by intro c h; cases c <;> cases h
  manualOnPath := by intro c h; cases c <;> cases h
  sinksInRange := by intro c; cases c <;> exact ⟨Nat.zero_le _, Nat.zero_le _⟩
  relayNotThree := by intro c h; cases c <;> cases h
  dividerInRange := Nat.zero_le _

theorem test_meets_UpdateOnlyInAnalog : Invariants registered ∧ registered.gmode = .register :=
  ⟨test_invariants_registered, rfl⟩

theorem test_meets_ReachableStatesMeetInvariants :
    ∃ t, Reachable t ∧ t.gmode = .register :=
  ⟨_, .step (.reset [CycleIn.write 0x00 0x00110004]) rfl, rfl⟩

/-- R242, R244: a powered-up block is reset by its first reset cycle, and its run goes on from there. -/
theorem test_meets_ReachableStatesMeetInvariants_powerUp :
    ∃ t, step (State.powerUp [CycleIn.reset]) = .next t ∧ Reachable t ∧ t.wasReset = true ∧ t.ch1 = Channel.reset :=
  ⟨_, rfl, .firstReset (s := State.powerUp [CycleIn.reset]) rfl rfl, rfl, rfl⟩

theorem test_meets_EveryStepKeepsLegalCodes :
    ∃ s t, s.specified ∧ LegalCodes s ∧ s.gmode = .register ∧ step s = .next t ∧ t.result = 6 :=
  ⟨coming (CycleIn.write 0x00 0x00110004) registered, run (CycleIn.write 0x00 0x00110004) registered,
    .inl rfl, ⟨by decide, by decide, fun _ => by decide⟩, rfl, rfl, by decide⟩

theorem test_meets_RegisterModeWritesNoOutput :
    let s := coming (CycleIn.write 0x00 0x00000011) registered
    s.wasReset = true ∧ s.gmode = .register ∧ s.nextInput.rst = false ∧ (run (CycleIn.write 0x00 0x00000011) registered).result = 6 := by decide

/-- The safe state with an EXIT_REG to come, with a START_WAVE to come in REGISTER mode, and (in ANALOG, after an EXIT_REG) with
a START_WAVE and an ENTER_REG that are rejected. -/
theorem test_meets_SafeStateHoldsUntilDriven :
    SafeState registered ∧ registered.wasReset = true ∧ (running 0 0 0).gmode = .analog ∧ (1 ≤ 247 ∧ 247 ≤ 247) ∧
      (coming (CycleIn.write 0x00 0x00000011) registered).nextInput.rst = false ∧
      (CycleIn.write 0x00 0x00000011).command? = some (.startWave 1 0) ∧ (Instr.startWave 1 0).drives = true ∧
      registered.gmode = .register ∧ (CycleIn.write 0x00 0x00000005).command? = some .exitReg ∧
      Instr.exitReg.drives = false ∧ (idle 0 0 0).gmode = .analog ∧
      (run (CycleIn.write 0x00 0x00000011) (idle 0 0 0)).result = 4 ∧
      (run (CycleIn.write 0x00 0x00F80004) (idle 0 0 0)).result = 7 := by
  refine ⟨?_, rfl, rfl, by decide, rfl, rfl, rfl, rfl, rfl, rfl, rfl, by decide, by decide⟩
  intro c; cases c <;> exact ⟨rfl, rfl, rfl, rfl⟩

theorem test_safe_in_analog : SafeState (idle 0 0 0) := by intro c; cases c <;> exact ⟨rfl, rfl, rfl, rfl⟩

/-- Two blocks before their first reset with different registers, and a cycle of each that asks for different things. -/
theorem test_meets_UnspecifiedUntilFirstReset :
    let s := { coming (CycleIn.write 0x00 0x00110004) (running 1 2 3) with wasReset := false }
    let s' := { coming CycleIn.oneTick registered with wasReset := false }
    s.wasReset = false ∧ s'.wasReset = false ∧ s.nextInput.rst = false ∧ s'.nextInput.rst = false ∧ s.draws = s'.draws ∧
      s.inputs.tail = s'.inputs.tail ∧ s.gmode ≠ s'.gmode ∧ (after s (step s)).wasReset = false ∧
      (run CycleIn.reset s).wasReset = true := ⟨rfl, rfl, rfl, rfl, rfl, rfl, nofun, rfl, rfl⟩

end Sys2Proof.Tests
end

namespace Sys2Proof.Machine

/-! ### The register values after reset (O11) -/

theorem State.reset_chan (c : ChanId) : State.reset.chan c = Channel.reset := by cases c <;> rfl

/-- Settles O11: each channel's registers are those of `Channel.reset`. -/
theorem resetValuesOfRegisters : Obligations.ResetValuesOfRegisters := by
  refine ⟨rfl, rfl, rfl, rfl, rfl, rfl, rfl, fun c => ?_⟩
  rw [State.reset_chan]
  exact ⟨rfl, rfl, rfl, rfl, rfl, rfl, rfl, rfl, rfl, rfl, rfl, rfl, rfl⟩

/-! ### The frame of the single-channel commands (O34) -/

/-- Settles O34: by the outcomes of a command, each of which changes the channel it names alone. -/
theorem otherChannelsUntouched : Obligations.OtherChannelsUntouched := by
  intro i s t d hnot hexec
  cases result_of_exec hexec with
  | rejected code => exact reject_chan code s d
  | started c m =>
    have hne : d ≠ c := by rintro rfl; exact hnot rfl
    rw [startChannel_chan, if_neg hne]
  | stoppedAll => exact absurd rfl hnot.1
  | stoppedOne c =>
    have hne : d ≠ c := by rintro rfl; exact hnot.2 rfl
    rw [accept_chan, stopOne_chan, if_neg hne]
  | set c m =>
    have hne : d ≠ c := by rintro rfl; exact hnot rfl
    rw [setChannel_chan, if_neg hne]
  | entered => exact hnot.elim
  | exited => exact hnot.elim
  | queried => exact hnot.elim

/-! ### The step of a specified block -/

/-- A specified step is a reset, or the bus write and the tick of a block that has been reset. -/
theorem specified_step_cases {s t : State} (hspec : s.specified) (hstep : step s = .next t) :
    (s.nextInput.rst = true ∧ t = resetCycle s.beginCycle) ∨
      (s.nextInput.rst = false ∧ s.wasReset = true ∧
        ∃ u, WriteResult s.nextInput (busRead s.nextInput s.beginCycle) u ∧ t = tickIf s.nextInput u) := by
  cases result_of_step hstep with
  | reset hr => exact .inl ⟨hr, rfl⟩
  | unspecified hr hw => simp [State.specified, hr, hw] at hspec
  | ran hr hw hu => exact .inr ⟨hr, hw, _, hu, rfl⟩

theorem resetCycle_chan (s : State) (c : ChanId) : (resetCycle s).chan c = Channel.reset := by
  rw [resetCycle_eq]; cases c <;> rfl

@[simp] theorem resetCycle_events (s : State) : (resetCycle s).events = s.events ++ safeEvents := by
  rw [resetCycle_eq]

/-! ### Outputs and events (O39)

Every operation of the block is a composition of the event emitters of R43 and of updates that touch no output, so the claim
about a step is proved as a relation between its first state and the state so far, which each of these keeps. -/

/-- From `s` to `t` events were appended, and every channel's outputs moved exactly as those events say (R43). -/
def OutputsTracked (s t : State) : Prop :=
  ∃ es, t.events = s.events ++ es ∧ ∀ c, (t.chan c).outputs = es.foldl (Outputs.after c) (s.chan c).outputs

theorem Outputs.after_sinkWrite (c d : ChanId) (k : SinkKind) (v : BitVec 16) (ch : Channel) :
    ch.outputs.after d (.sinkWrite c k v) = if d = c then (ch.setSink k v).outputs else ch.outputs := by
  by_cases h : d = c
  · cases k <;> simp [Outputs.after, h, Channel.outputs]
  · cases k <;> simp [Outputs.after, h, Ne.symm h]

theorem Outputs.after_relaySet (c d : ChanId) (p : RelayPos) (ch : Channel) :
    ch.outputs.after d (.relaySet c p) = if d = c then { ch with relay := p.code }.outputs else ch.outputs := by
  by_cases h : d = c
  · cases p <;> simp [Outputs.after, h, Channel.outputs, RelayPos.code]
  · cases p <;> simp [Outputs.after, h, Ne.symm h]

namespace OutputsTracked

variable {s t : State}

theorem refl (s : State) : OutputsTracked s s := ⟨[], (List.append_nil _).symm, fun _ => rfl⟩

/-- One more event, with its effect on every channel's outputs, is tracked. -/
theorem append (h : OutputsTracked s t) (e : Event) {u : State} (he : u.events = t.events ++ [e])
    (ho : ∀ c, (u.chan c).outputs = (t.chan c).outputs.after c e) : OutputsTracked s u := by
  obtain ⟨es, hes, hos⟩ := h
  refine ⟨es ++ [e], by rw [he, hes, List.append_assoc], fun c => ?_⟩
  rw [ho, hos, List.foldl_append, List.foldl_cons, List.foldl_nil]

/-- An update that emits nothing and leaves every output is tracked. -/
theorem silent (h : OutputsTracked s t) {u : State} (he : u.events = t.events)
    (ho : ∀ c, (u.chan c).outputs = (t.chan c).outputs) : OutputsTracked s u := by
  obtain ⟨es, hes, hos⟩ := h
  exact ⟨es, he.trans hes, fun c => (ho c).trans (hos c)⟩

theorem emitSink (h : OutputsTracked s t) {c : ChanId} {k : SinkKind} {v : BitVec 16} :
    OutputsTracked s (emitSink c k v t) := by
  refine h.append _ (emitSink_events c k v t) fun d => ?_
  rw [emitSink_chan, Outputs.after_sinkWrite]
  split
  · next hd => rw [hd]
  · rfl

theorem emitRelay (h : OutputsTracked s t) {c : ChanId} {p : RelayPos} : OutputsTracked s (emitRelay c p t) := by
  refine h.append _ (emitRelay_events c p t) fun d => ?_
  rw [emitRelay_chan, Outputs.after_relaySet]
  split
  · next hd => rw [hd]
  · rfl

theorem reject (h : OutputsTracked s t) {code : ResultCode} : OutputsTracked s (reject code t) :=
  h.append _ (reject_events code t) fun c => by rw [reject_chan]; rfl

theorem accept (h : OutputsTracked s t) {code : ResultCode} : OutputsTracked s (accept code t) := by
  by_cases hc : code = .ok
  · exact h.silent (by simp [hc]) fun c => by rw [accept_chan]
  · exact h.append (.notice code) (by simp [hc]) fun c => by rw [accept_chan]; rfl

/-- A change of one channel's registers other than its outputs is tracked. -/
theorem modChan (h : OutputsTracked s t) {c : ChanId} {f : Channel → Channel}
    (hf : ∀ ch, (f ch).outputs = ch.outputs := by intro _; rfl) :
    OutputsTracked s (t.modChan c f) := by
  refine h.silent (State.modChan_events t c f) fun d => ?_
  rw [State.chan_modChan]
  split
  · next hd => rw [hf, hd]
  · rfl

theorem mapChans (h : OutputsTracked s t) {f : Channel → Channel} (hf : ∀ ch, (f ch).outputs = ch.outputs) :
    OutputsTracked s (t.mapChans f) :=
  h.silent (State.mapChans_events t f) fun c => by rw [State.chan_mapChans, hf]

theorem forChans (h : OutputsTracked s t) {f : ChanId → State → State}
    (hf : ∀ c {u}, OutputsTracked s u → OutputsTracked s (f c u)) : OutputsTracked s (forChans f t) :=
  hf .c3 (hf .c2 (hf .c1 h))

/-! #### The shared operations, the commands and the tick -/

theorem stopOne (h : OutputsTracked s t) {c : ChanId} : OutputsTracked s (stopOne c t) := by
  unfold Machine.stopOne
  split
  · exact .emitSink h.modChan
  · exact h

theorem safeOutputs (h : OutputsTracked s t) : OutputsTracked s (safeOutputs t) :=
  .forChans (h.forChans fun _ _ hu => .emitSink (.emitSink hu)) fun _ _ hu => .emitRelay hu

theorem startChannel (h : OutputsTracked s t) {c : ChanId} {m : Mode} : OutputsTracked s (startChannel c m t) :=
  .accept (.emitSink (.emitRelay h.modChan))

theorem setChannel (h : OutputsTracked s t) {c : ChanId} {m : Mode} : OutputsTracked s (setChannel c m t) :=
  .accept (.modChan (.emitSink (.emitRelay (.modChan h.stopOne))))

theorem enterRegister (h : OutputsTracked s t) {id : Nat} : OutputsTracked s (enterRegister id t) := by
  have safe : OutputsTracked s (Machine.safeOutputs (Machine.forChans Machine.stopOne t)) :=
    (h.forChans fun _ _ hu => hu.stopOne).safeOutputs
  refine safe.silent ?_ fun c => ?_
  · rw [enterRegister_events, safeOutputs_events, stopAll_events]
  · rw [enterRegister_chan, safeOutputs_chan, stopAll_chan]; rfl

theorem exitRegister (h : OutputsTracked s t) : OutputsTracked s (exitRegister t) :=
  h.silent rfl fun c => by rw [exitRegister_chan]; rfl

theorem queried (h : OutputsTracked s t) : OutputsTracked s (queried t) :=
  h.silent rfl fun c => by rw [queried_chan]; rfl

theorem updateEvent (h : OutputsTracked s t) : OutputsTracked s (updateEvent t) := by
  unfold Machine.updateEvent
  split
  · refine h.forChans fun c u hu => ?_
    split
    · exact hu.emitSink
    · exact hu
  · exact h

theorem tick (h : OutputsTracked s t) : OutputsTracked s (tick t) := by
  have advanced : OutputsTracked s (t.mapChans advance) := h.mapChans fun ch => by simp [Channel.outputs]
  by_cases h9 : t.updCnt.toNat = 249
  · rw [tick_of_expired h9]
    exact .updateEvent (advanced.silent rfl fun c => by cases c <;> rfl)
  · rw [tick_of_running h9]
    exact advanced.silent rfl fun c => by cases c <;> rfl

theorem tickIf (h : OutputsTracked s t) {inp : CycleIn} : OutputsTracked s (tickIf inp t) := by
  unfold Machine.tickIf
  split
  · exact h.tick
  · exact h

end OutputsTracked

theorem CommandResult.outputsTracked {i : Instr} {s t : State} (h : CommandResult i s t) : OutputsTracked s t := by
  cases h with
  | rejected => exact (OutputsTracked.refl s).reject
  | started => exact (OutputsTracked.refl s).startChannel
  | stoppedAll => exact ((OutputsTracked.refl s).forChans fun _ _ hu => hu.stopOne).accept
  | stoppedOne => exact (OutputsTracked.refl s).stopOne.accept
  | set => exact (OutputsTracked.refl s).setChannel
  | entered => exact (OutputsTracked.refl s).enterRegister
  | exited => exact (OutputsTracked.refl s).exitRegister
  | queried => exact (OutputsTracked.refl s).queried

theorem WriteResult.outputsTracked {inp : CycleIn} {s t : State} (h : WriteResult inp s t) : OutputsTracked s t := by
  cases h with
  | command i _ hr => exact hr.outputsTracked
  | reservedOpcode => exact (OutputsTracked.refl s).reject
  | noWrite | ignored => exact .refl s
  | arg0 | arg1 | arg2 => exact (OutputsTracked.refl s).silent rfl fun c => by cases c <;> rfl

/-- A reset writes every output, so what stood there before, even in an unspecified block, does not matter (R241). -/
theorem foldl_after_safeEvents (c : ChanId) (o : Outputs) :
    safeEvents.foldl (Outputs.after c) o = Channel.reset.outputs := by cases c <;> rfl

/-- Settles O39: a reset's nine events set every output, and any other specified step keeps `OutputsTracked` from the empty
event list on. -/
theorem outputsFollowTheEventList : Obligations.OutputsFollowTheEventList := by
  intro s t c hspec hstep
  rcases specified_step_cases hspec hstep with ⟨_, rfl⟩ | ⟨_, _, u, hu, rfl⟩
  · rw [resetCycle_events, resetCycle_chan, State.beginCycle_events, List.nil_append, foldl_after_safeEvents]
  · obtain ⟨es, he, ho⟩ := hu.outputsTracked.tickIf (inp := s.nextInput)
    rw [he, ho]
    simp

/-! ### Ports and events (O40) -/

/-- The notices of the step so far, in order (R213). -/
def State.notices (s : State) : List Event := s.events.filter Event.isNotice

theorem notices_of_events {s t : State} {es : List Event} (h : t.events = s.events ++ es) :
    t.notices = s.notices ++ es.filter Event.isNotice := by
  rw [State.notices, h, List.filter_append]; rfl

@[simp] theorem filter_isNotice_stopEvents (c : ChanId) (ch : Channel) : (stopEvents c ch).filter Event.isNotice = [] := by
  unfold stopEvents; split <;> rfl

@[simp] theorem filter_isNotice_sampleEvents (c : ChanId) (ch : Channel) :
    (sampleEvents c ch).filter Event.isNotice = [] := by
  unfold sampleEvents; split <;> rfl

@[simp] theorem filter_isNotice_safeEvents : safeEvents.filter Event.isNotice = [] := rfl

@[simp] theorem isNotice_sinkWrite (c : ChanId) (k : SinkKind) (v : BitVec 16) :
    (Event.sinkWrite c k v).isNotice = false := rfl
@[simp] theorem isNotice_relaySet (c : ChanId) (p : RelayPos) : (Event.relaySet c p).isNotice = false := rfl
@[simp] theorem isNotice_notice (code : ResultCode) : (Event.notice code).isNotice = true := rfl

theorem tick_notices (s : State) : (tick s).notices = s.notices := by
  rw [notices_of_events (tick_events s)]
  split <;> simp

theorem tickIf_notices (inp : CycleIn) (s : State) : (tickIf inp s).notices = s.notices := by
  unfold tickIf
  split
  · exact tick_notices s
  · rfl

/-- A command emits no notice but the one of a code other than OK (R213). -/
theorem CommandResult.notices {i : Instr} {s t : State} (h : CommandResult i s t) :
    ∃ code : ResultCode, t.result = code.code ∧
      t.notices = s.notices ++ if code = .ok then [] else [.notice code] := by
  cases h with
  | rejected code hc => exact ⟨code, rfl, by rw [if_neg hc.1]; exact notices_of_events (reject_events code s)⟩
  | started c m =>
    refine ⟨startCode m s, by simp, ?_⟩
    rw [notices_of_events (startChannel_events c m s)]
    split <;> simp
  | stoppedAll => exact ⟨.ok, rfl, by rw [State.notices, accept_events, stopAll_events]; simp [State.notices]⟩
  | stoppedOne c => exact ⟨.ok, rfl, by simp [State.notices]⟩
  | set c m => exact ⟨.ok, rfl, by rw [notices_of_events (setChannel_events c m s)]; simp⟩
  | entered id => exact ⟨.ok, rfl, by simp [State.notices, enterRegister_events]⟩
  | exited | queried => exact ⟨.ok, rfl, by simp [State.notices]⟩

theorem WriteResult.notices_length {inp : CycleIn} {s t : State} (h : WriteResult inp s t) :
    t.notices.length ≤ s.notices.length + 1 := by
  cases h with
  | command i _ hr =>
    obtain ⟨code, _, hn⟩ := hr.notices
    rw [hn]
    split <;> simp
  | reservedOpcode => rw [notices_of_events (reject_events .invalidOpcode s), List.length_append]; rfl
  | noWrite | ignored | arg0 | arg1 | arg2 => exact Nat.le_succ _

/-- A specified step leaves a block that has been reset. -/
theorem wasReset_of_specified {s t : State} (hspec : s.specified) (hstep : step s = .next t) : t.wasReset = true := by
  rcases specified_step_cases hspec hstep with ⟨_, rfl⟩ | ⟨_, hw, u, hu, rfl⟩
  · exact resetCycle_wasReset _
  · rw [tickIf_wasReset, hu.wasReset, busRead_wasReset, State.beginCycle_wasReset, hw]

/-- A specified step emits at most one notice: its command's, if it runs one (R213). -/
theorem notices_length_of_specified {s t : State} (hspec : s.specified) (hstep : step s = .next t) :
    t.notices.length ≤ 1 := by
  rcases specified_step_cases hspec hstep with ⟨_, rfl⟩ | ⟨_, _, u, hu, rfl⟩
  · simp [State.notices]
  · rw [tickIf_notices]
    simpa [State.notices] using hu.notices_length

theorem Event.writesSink_iff (c : ChanId) (k : SinkKind) (e : Event) :
    e.writesSink c k = true ↔ ∃ v, e = .sinkWrite c k v := by
  cases e <;> simp [Event.writesSink]

theorem Event.isNotice_iff (e : Event) : e.isNotice = true ↔ ∃ code, e = .notice code := by
  cases e <;> simp

theorem writeStrobe_iff {s : State} (h : s.wasReset = true) (c : ChanId) (k : SinkKind) :
    writeStrobe c k s = true ↔ ∃ v, Event.sinkWrite c k v ∈ s.events := by
  simp only [writeStrobe_of_wasReset h, List.any_eq_true, Event.writesSink_iff]
  constructor
  · rintro ⟨_, he, v, rfl⟩; exact ⟨v, he⟩
  · rintro ⟨v, he⟩; exact ⟨_, he, v, rfl⟩

theorem noticeValid_iff {s : State} (h : s.wasReset = true) :
    noticeValid s = true ↔ ∃ code, Event.notice code ∈ s.events := by
  rw [noticeValid_of_wasReset h, List.any_eq_true]
  constructor
  · rintro ⟨e, he, hn⟩
    obtain ⟨code, rfl⟩ := e.isNotice_iff.mp hn
    exact ⟨code, he⟩
  · rintro ⟨code, he⟩; exact ⟨_, he, rfl⟩

/-- The first notice of a list that holds at most one is any notice in it. -/
theorem findSome?_noticeCode? {es : List Event} {code : ResultCode} (hone : (es.filter Event.isNotice).length ≤ 1)
    (hmem : Event.notice code ∈ es) : es.findSome? Event.noticeCode? = some code := by
  induction es with
  | nil => cases hmem
  | cons e es ih =>
    cases e with
    | notice first =>
      have hrest : ∀ x ∈ es, x.isNotice = false := by simpa [List.filter_cons] using hone
      rcases List.mem_cons.mp hmem with hhead | htail
      · cases hhead; rfl
      · exact absurd (hrest _ htail) (by simp)
    | sinkWrite | relaySet => exact ih hone (by simpa using hmem)

theorem noticeCode_of_mem {s : State} (h : s.wasReset = true) (hone : s.notices.length ≤ 1) {code : ResultCode}
    (hmem : Event.notice code ∈ s.events) : noticeCode s = some code.code := by
  rw [noticeCode_of_wasReset h, findSome?_noticeCode? hone hmem]; rfl

theorem relayLine_iff {s : State} (h : s.wasReset = true) (p : RelayPos) (c : ChanId) :
    relayLine p c s = true ↔ (s.chan c).relay = p.code := by
  rw [relayLine_of_wasReset h, decide_eq_true_iff]

/-- A reset writes every sink (R241). -/
theorem sinkWrite_mem_safeEvents (c : ChanId) (k : SinkKind) : Event.sinkWrite c k 0 ∈ safeEvents := by
  cases c <;> cases k <;> decide

/-- Settles O40: a specified step leaves a block that has been reset, so its ports show its events and relays. -/
theorem portsFollowTheStep : Obligations.PortsFollowTheStep := by
  intro s t hspec hstep
  have hw := wasReset_of_specified hspec hstep
  have hone := notices_length_of_specified hspec hstep
  have hreset : s.nextInput.rst = true → t.events = safeEvents := fun hr => by
    rcases specified_step_cases hspec hstep with ⟨_, rfl⟩ | ⟨hr', _⟩
    · rw [resetCycle_events, State.beginCycle_events, List.nil_append]
    · simp [hr] at hr'
  refine ⟨writeStrobe_iff hw, fun hr c k => ?_, fun c => ⟨relayLine_iff hw .rv c, relayLine_iff hw .rc c⟩,
    noticeValid_iff hw, fun code => noticeCode_of_mem hw hone, hone⟩
  exact (writeStrobe_iff hw c k).mpr ⟨0, hreset hr ▸ sinkWrite_mem_safeEvents c k⟩

end Sys2Proof.Machine

namespace Sys2Proof.Machine

/-! ### The register space by slot -/

/-- The slot is `bus_addr[7:2]` (R60, R68). -/
theorem toNat_extractLsb'_eq_slotOf (a : Addr) : (a.extractLsb' 2 6).toNat = slotOf a := by
  rw [BitVec.extractLsb'_toNat, Nat.shiftRight_eq_div_pow]
  exact Nat.mod_eq_of_lt (slotOf_lt a)

section slot
variable {a : Addr}

theorem regWrite_cmd (h : slotOf a = 0) (w : Word) (s : State) : regWrite a w s = executeCommand w s := by
  simp [regWrite, h]
theorem regWrite_arg0 (h : slotOf a = 1) (w : Word) (s : State) : regWrite a w s = .next { s with arg0 := w } := by
  simp [regWrite, h]
theorem regWrite_arg1 (h : slotOf a = 2) (w : Word) (s : State) : regWrite a w s = .next { s with arg1 := w } := by
  simp [regWrite, h]
theorem regWrite_arg2 (h : slotOf a = 3) (w : Word) (s : State) : regWrite a w s = .next { s with arg2 := w } := by
  simp [regWrite, h]

/-- The reserved global slots read 0 (R61, R62). -/
theorem regRead_reserved_global (h6 : 6 ≤ slotOf a) (h15 : slotOf a ≤ 15) (s : State) : regRead a s = 0 := by
  rw [regRead_global (Nat.lt_succ_of_le h15), readGlobal_reserved (.inr h6)]

/-- The last slot of every block, the global one and each channel's, reads 0 (R62). -/
theorem regRead_last_of_block (h : slotOf a % 16 = 15) (s : State) : regRead a s = 0 := by
  have hlt := slotOf_lt a
  rcases chanField_cases (slotOf a / 16) with hglobal | ⟨c, hc⟩
  · exact regRead_reserved_global (by omega) (by omega) s
  · rw [regRead_channel hc, readChannel_reserved h.ge]

end slot

/-- No bus write is an error (R62). -/
theorem regWrite_total (a : Addr) (w : Word) (s : State) : ∃ t, regWrite a w s = .next t := by
  obtain ⟨t, ht, -⟩ := write_result (CycleIn.write a w) s
  exact ⟨t, ht⟩

/-- A read within channel `c`'s block gives the channel's slot (R63). -/
theorem regRead_chanAddr (c : ChanId) {off : Nat} (h : off < 64) (s : State) :
    regRead (BitVec.ofNat 8 (0x40 * c.number + off)) s = readChannel (off / 4) (s.chan c) := by
  have hslot := slotOf_chanAddr c h
  rw [regRead_channel (c := c) (by omega)]
  congr 1
  omega

/-- A write within a channel's block is ignored (R63). -/
theorem regWrite_chanAddr (c : ChanId) {off : Nat} (h : off < 64) (w : Word) (s : State) :
    regWrite (BitVec.ofNat 8 (0x40 * c.number + off)) w s = .next s := by
  have hslot := slotOf_chanAddr c h
  have hpos := c.number_bounds
  exact regWrite_ignored (by omega) w s

/-- Settles O16: each address of the block reaches the channel's slot `off / 4`. -/
theorem channelRegisterMap : Obligations.ChannelRegisterMap := by
  intro s c rd
  have hrd (off : Nat) (h : off < 64 := by decide) : rd off = readChannel (off / 4) (s.chan c) := regRead_chanAddr c h s
  exact ⟨hrd 0x00, hrd 0x04, hrd 0x08, hrd 0x0C, hrd 0x10, hrd 0x14, hrd 0x18, hrd 0x1C, hrd 0x20, hrd 0x24, hrd 0x28,
    hrd 0x2C, hrd 0x30, hrd 0x34, hrd 0x38, hrd 0x3C, fun _ w h => regWrite_chanAddr c h w s⟩

/-- Settles O19: slots 6 to 15 are reserved global slots, slot 15 ends its block, and a bus write always answers. -/
theorem reservedSlotsReadZero : Obligations.ReservedSlotsReadZero := fun a w s =>
  ⟨fun h6 h15 => regRead_reserved_global h6 h15 s, fun h => regRead_last_of_block h s,
    fun h => regWrite_ignored h w s, regWrite_total a w s⟩

/-- Settles O15: each listed offset is its slot's, and the offsets from 0x18 on are the reserved slots. -/
theorem globalRegisterMap : Obligations.GlobalRegisterMap := by
  intro s w
  refine ⟨rfl, regWrite_cmd rfl w s, rfl, regWrite_arg0 rfl w s, rfl, regWrite_arg1 rfl w s, rfl, regWrite_arg2 rfl w s,
    rfl, regWrite_ignored (by decide) w s, rfl, regWrite_ignored (by decide) w s, fun a hlo hhi => ?_⟩
  obtain ⟨h6, h15⟩ : 6 ≤ slotOf a ∧ slotOf a ≤ 15 := by unfold slotOf; omega
  exact ⟨regRead_reserved_global h6 h15 s, regWrite_ignored (by omega) w s⟩

/-- Settles O18: the slot of the statement is `slotOf`, and each slot's write is known. -/
theorem registerWriteBySlot : Obligations.RegisterWriteBySlot := by
  intro a w s slot
  have hslot : slotOf a = slot := (toNat_extractLsb'_eq_slotOf a).symm
  split_ifs with h0 h1 h2 h3
  · exact regWrite_cmd (hslot.trans h0) w s
  · exact regWrite_arg0 (hslot.trans h1) w s
  · exact regWrite_arg1 (hslot.trans h2) w s
  · exact regWrite_arg2 (hslot.trans h3) w s
  · exact regWrite_ignored (by omega) w s

/-- Settles O20: addresses that agree in bits [7:2] reach one slot. -/
theorem lowAddressBitsIgnored : Obligations.LowAddressBitsIgnored := by
  intro a b w s h
  have hslot : slotOf a = slotOf b := by rw [← toNat_extractLsb'_eq_slotOf, h, toNat_extractLsb'_eq_slotOf]
  obtain ⟨hread, hwrite⟩ := reg_congr hslot
  exact ⟨congrFun hread s, congrFun (congrFun hwrite w) s⟩

/-! ### The fields of the status words (O17) -/

theorem GMode.getElem_code (g : GMode) : g.code[0] = true ↔ g = .register := by cases g <;> decide

theorem Mode.getElem_code (m : Mode) : m.code[0] = true ↔ m = .c := by cases m <;> decide

theorem extractLsb'_eq_of_getLsbD {w : Word} {lo len : Nat} {v : BitVec len}
    (h : ∀ i < len, w.getLsbD (lo + i) = v.getLsbD i) : w.extractLsb' lo len = v :=
  BitVec.eq_of_getLsbD_eq fun i hi => by rw [BitVec.getLsbD_extractLsb', h i hi, decide_eq_true hi, Bool.true_and]

theorem extractLsb'_statusWord_result (s : State) : (statusWord s).extractLsb' 0 4 = s.result :=
  extractLsb'_eq_of_getLsbD fun i hi => by
    rw [getLsbD_statusWord]
    interval_cases i <;> simp

theorem extractLsb'_statusWord_regId (s : State) : (statusWord s).extractLsb' 16 8 = s.regId :=
  extractLsb'_eq_of_getLsbD fun i hi => by
    rw [getLsbD_statusWord]
    interval_cases i <;> simp

theorem getLsbD_statusWord_gmode (s : State) : (statusWord s).getLsbD 8 = true ↔ s.gmode = .register := by
  rw [getLsbD_statusWord]
  simp [GMode.getElem_code]

theorem getLsbD_statusWord_active (s : State) (c : ChanId) :
    (statusWord s).getLsbD (11 + c.number) = (s.chan c).active := by
  rw [getLsbD_statusWord]
  cases c <;> simp [ChanId.number]

theorem getLsbD_statusWord_reserved (s : State) {n : Nat} (h4 : 4 ≤ n) (h8 : n ≠ 8) (h12 : n ≠ 12) (h13 : n ≠ 13)
    (h14 : n ≠ 14) (h : n < 16 ∨ 24 ≤ n) : (statusWord s).getLsbD n = false := by
  have hresult : ¬ n < 4 := by omega
  have hregId : 16 ≤ n → ¬ n < 24 := by omega
  simp +contextual [getLsbD_statusWord, hresult, h8, h12, h13, h14, hregId]

theorem extractLsb'_chStateWord_owner (ch : Channel) : (chStateWord ch).extractLsb' 0 2 = ch.owner.code :=
  extractLsb'_eq_of_getLsbD fun i hi => by
    rw [getLsbD_chStateWord]
    interval_cases i <;> simp

theorem extractLsb'_chStateWord_relay (ch : Channel) : (chStateWord ch).extractLsb' 8 2 = ch.relay :=
  extractLsb'_eq_of_getLsbD fun i hi => by
    rw [getLsbD_chStateWord]
    interval_cases i <;> simp

theorem getLsbD_chStateWord_mode (ch : Channel) : (chStateWord ch).getLsbD 4 = true ↔ ch.mode = .c := by
  rw [getLsbD_chStateWord]
  simp [Mode.getElem_code]

theorem getLsbD_chStateWord_active (ch : Channel) : (chStateWord ch).getLsbD 12 = ch.active := by
  rw [getLsbD_chStateWord]
  simp

theorem getLsbD_chStateWord_reserved (ch : Channel) {n : Nat} (h2 : 2 ≤ n) (h4 : n ≠ 4) (h8 : n ≠ 8) (h9 : n ≠ 9)
    (h12 : n ≠ 12) : (chStateWord ch).getLsbD n = false := by
  have howner : ¬ n < 2 := by omega
  have hrelay : 8 ≤ n → ¬ n < 10 := by omega
  simp +contextual [getLsbD_chStateWord, howner, h4, hrelay, h12]

/-- Bit 0 of the flags QUERY_STATUS latches is `active` (R64, R190). -/
theorem getLsbD_snapshotOf_flags_active (ch : Channel) : (snapshotOf ch).flags.getLsbD 0 = ch.active := by
  rw [snapshotOf, BitVec.getLsbD_or, BitVec.getLsbD_setWidth, getLsbD_activeBit]
  simp

/-- Bit 1 of the flags QUERY_STATUS latches is `mode` (R64, R190). -/
theorem getLsbD_snapshotOf_flags_mode (ch : Channel) : (snapshotOf ch).flags.getLsbD 1 = true ↔ ch.mode = .c := by
  rw [snapshotOf, BitVec.getLsbD_or, BitVec.getLsbD_setWidth, getLsbD_activeBit]
  simp [Mode.getElem_code]

/-- `SNAP_FLAGS` after QUERY_STATUS is what it latches from the channel (R63, R190). -/
theorem regRead_snapFlags_queried (c : ChanId) (s : State) :
    regRead (BitVec.ofNat 8 (0x40 * c.number + 0x20)) (queried s) = (snapshotOf (s.chan c)).flags.setWidth 32 := by
  rw [regRead_chanAddr c (by decide), queried_chan]
  rfl

/-- Settles O17: field by field, from the bits of the two status words and of the flags QUERY_STATUS latches. -/
theorem statusFieldLayouts : Obligations.StatusFieldLayouts := by
  intro s c status chState
  have hchState : chState = chStateWord (s.chan c) := regRead_chanAddr c (off := 0) (by decide) s
  rw [hchState]
  refine ⟨extractLsb'_statusWord_result s, getLsbD_statusWord_gmode s, getLsbD_statusWord_active s c,
    extractLsb'_statusWord_regId s, fun n => getLsbD_statusWord_reserved s,
    ?_, getLsbD_chStateWord_mode _, extractLsb'_chStateWord_relay _, getLsbD_chStateWord_active _,
    fun n => getLsbD_chStateWord_reserved _, queried s, rfl, ?_⟩
  · rw [extractLsb'_chStateWord_owner]
    cases (s.chan c).owner <;> rfl
  · intro flags
    have hbit (n : Nat) : flags.getLsbD n = (decide (n < 32) && (snapshotOf (s.chan c)).flags.getLsbD n) := by
      rw [show flags = _ from regRead_snapFlags_queried c s, BitVec.getLsbD_setWidth]
    refine ⟨(hbit 0).trans (getLsbD_snapshotOf_flags_active _), ?_, fun n h2 => ?_⟩
    · rw [hbit 1]
      exact getLsbD_snapshotOf_flags_mode _
    · rw [hbit n, BitVec.getLsbD_of_ge _ n h2, Bool.and_false]

end Sys2Proof.Machine

namespace Sys2Proof

/-! ### The fields of the command word -/

/-- A field within the low `n` bits depends on those bits alone. -/
theorem field_congr {w w' : Word} {n : Nat} (h : w.extractLsb' 0 n = w'.extractLsb' 0 n) {lo len : Nat}
    (hle : lo + len ≤ n) : field w lo len = field w' lo len := by
  have hbit {i : Nat} (hi : i < n) : w.getLsbD i = w'.getLsbD i := by
    simpa [BitVec.getLsbD_extractLsb', hi] using congrArg (·.getLsbD i) h
  rw [field_eq_extractLsb', field_eq_extractLsb']
  congr 1
  refine BitVec.eq_of_getLsbD_eq fun i hi => ?_
  rw [BitVec.getLsbD_extractLsb', BitVec.getLsbD_extractLsb', hbit (by omega)]

/-- The decoder reads `OP`, `CH` and `MD`, and `ID` under the opcode of ENTER_REG alone (R83, R89). -/
theorem decode_congr {w w' : Word} (hop : opField w = opField w') (hch : chField w = chField w')
    (hmd : mdField w = mdField w') (hid : opField w = 4 → idField w = idField w') : decode w = decode w' := by
  unfold decode
  rw [← hop, ← hch, ← hmd]
  split
  case h_4 h4 => rw [hid h4]
  all_goals rfl

end Sys2Proof

namespace Sys2Proof.Machine

/-! ### Ignored bits and reserved opcodes (O4, O6) -/

/-- A word does what it decodes to. -/
theorem executeCommand_congr {w w' : Word} (h : decode w = decode w') (s : State) :
    executeCommand w s = executeCommand w' s := by
  unfold executeCommand
  rw [h]

/-- Settles O4: the two words decode alike. -/
theorem ignoredBitsChangeNothing : Obligations.IgnoredBitsChangeNothing := by
  intro w w' s hlow hid
  have hfield {lo len : Nat} (hle : lo + len ≤ 10) : field w lo len = field w' lo len := field_congr hlow hle
  refine executeCommand_congr
    (decode_congr (hfield (by decide)) (hfield (by decide)) (hfield (by decide)) fun h4 => ?_) s
  have hop : w.extractLsb' 0 4 = 4#4 := BitVec.eq_of_toNat_eq ((field_eq_extractLsb' w 0 4).symm.trans h4)
  rw [idField, idField, field_eq_extractLsb', field_eq_extractLsb', hid hop]

theorem executeCommand_reserved {w : Word} (h : opField w = 0 ∨ 7 ≤ opField w) (s : State) :
    executeCommand w s = .next (reject .invalidOpcode s) := by
  simp [executeCommand, decode_reserved h]

/-- Settles O6: the opcode is reserved, so the word is rejected. -/
theorem reservedOpcodeIsRejected : Obligations.ReservedOpcodeIsRejected := by
  intro w s h
  rw [← field_eq_extractLsb'] at h
  rw [executeCommand_reserved h, reject_eq]
  rfl

/-! ### The host's pseudo-instructions (O7) -/

/-- Fields that fit their places do not overlap, so the `|` of R93 is the sum of R80. -/
theorem hostCmdWord_eq_sum {op ch md : Nat} (hop : op < 16) (hch : ch < 16) (hmd : md < 4) (id : Nat) :
    hostCmdWord op ch md id = op + ch * 2 ^ 4 + md * 2 ^ 8 + id * 2 ^ 16 := by
  have hor {low : Nat} (n x : Nat) (h : low < 2 ^ n) : low ||| x <<< n = low + x * 2 ^ n := by
    rw [Nat.or_comm, ← Nat.shiftLeft_add_eq_or_of_lt h, Nat.shiftLeft_eq, Nat.add_comm]
  rw [hostCmdWord, hor 4 ch (by omega), hor 8 md (by omega), hor 16 id (by omega)]

/-- The `CMD` statement writes the command word of its fields to `CMD` (R80, R93). -/
theorem cmdCycle_eq_write {op ch md : Nat} (hop : op < 16) (hch : ch < 16) (hmd : md < 4) (id : Nat) :
    cmdCycle op ch md id = CycleIn.write 0x00 (cmdWord op ch md id) := by
  rw [cmdCycle, wrCycle, hostCmdWord_eq_sum hop hch hmd, BitVec.ofInt_natCast]
  rfl

/-- Settles O7: the operand writes stand in the expansion as they are, and the last write is that of the encoded command. -/
theorem pseudoInstructionsExpand : Obligations.PseudoInstructionsExpand := by
  intro ch id md amp per ctr value hch hmd _ _ _ _
  refine ⟨?start, ?stop, rfl, ?set, ?enter, rfl, rfl⟩
  case start => rw [HostStmt.cycles, cmdCycle_eq_write (by decide) hch hmd]; rfl
  case stop => rw [HostStmt.cycles, cmdCycle_eq_write (by decide) hch (by decide)]; rfl
  case set => rw [HostStmt.cycles, cmdCycle_eq_write (by decide) hch hmd]; rfl
  case enter => rw [HostStmt.cycles, cmdCycle_eq_write (by decide) (by decide) (by decide)]; rfl

end Sys2Proof.Machine

namespace Sys2Proof.Machine

/-! ### Flags, modes and channel loops, as the rules write them -/

theorem Channel.not_active_iff (ch : Channel) : ch.active = false ↔ ch.owner ≠ .wave := by simp [Channel.active]

theorem State.updates_iff (s : State) : s.updates = true ↔ s.updCnt.toNat = 249 ∧ s.gmode = .analog := by
  simp [State.updates]

theorem sinkOf_eq (m : Mode) : sinkOf m = if m = .v then .v else .i := by cases m <;> rfl

theorem Channel.setSink_sinkOf (m : Mode) (v : BitVec 16) (ch : Channel) :
    ch.setSink (sinkOf m) v = { ch with outV := if m = .v then v else ch.outV, outI := if m = .c then v else ch.outI } := by
  cases m <;> rfl

theorem pathOf_eq (m : Mode) : pathOf m = if m = .v then .rv else .rc := by cases m <;> rfl

theorem pathOf_code (m : Mode) : (pathOf m).code = if m = .v then 1 else 2 := by cases m <;> rfl

/-- A loop over the channels that emits one event for each channel of a kind emits them in channel order. -/
theorem map_filter_channels (p : ChanId → Bool) (f : ChanId → Event) :
    ([ChanId.c1, ChanId.c2, ChanId.c3].filter p).map f =
      (if p .c1 then [f .c1] else []) ++ (if p .c2 then [f .c2] else []) ++ (if p .c3 then [f .c3] else []) := by
  simp only [List.filter]
  cases p .c1 <;> cases p .c2 <;> cases p .c3 <;> rfl

/-! ### The angle and the sine (O44, O45) -/

/-- Settles O44: the phase's fraction of the period is below 1, so 1024 steps of it fit the angle's 10 bits. -/
theorem angleQuantisesThePhase : Obligations.AngleQuantisesThePhase := by
  intro ch hphase
  have hlt : ch.phase.toNat * 1024 / ch.period.toNat < 1024 := scaled_phase_lt hphase (by decide)
  have hwidth : ch.phase.toNat < 2 ^ 16 := ch.phase.isLt
  refine ⟨?_, by omega, by omega⟩
  rw [angle_inPeriod hphase, BitVec.toNat_ofNat]
  exact Nat.mod_eq_of_lt hlt

/-- The quadrant of an angle is its two high bits. -/
theorem extractLsb'_quadrant_eq_iff (a : BitVec 10) (q : BitVec 2) : a.extractLsb' 8 2 = q ↔ a.toNat / 256 = q.toNat := by
  have ha := a.isLt
  rw [← BitVec.toNat_inj, BitVec.extractLsb'_toNat, Nat.shiftRight_eq_div_pow]
  omega

theorem toNat_extractLsb'_index (a : BitVec 10) : (a.extractLsb' 0 8).toNat = a.toNat % 256 := by
  simp

/-- Settles O45: `sinq` folds by the angle's quotient and remainder by 256, which are its bits [9:8] and [7:0]. -/
theorem sineFoldsTheQuarterWave : Obligations.SineFoldsTheQuarterWave := by
  refine ⟨fun a => ?_, sinq_bounds⟩
  simp only [extractLsb'_quadrant_eq_iff, toNat_extractLsb'_index]
  unfold sinq
  split
  next h => simp [h]
  next h => simp [h]
  next h => simp [h]
  next h0 h1 h2 => exact ((if_neg h0).trans <| (if_neg h1).trans <| if_neg h2).symm

/-! ### Scaling and clamping (O49, O50) -/

theorem abs_sinq_le (a : BitVec Config.angleBits) : |sinq a| ≤ 2 ^ 15 := abs_le.mpr (sinq_bounds a)

theorem abs_prod_le (ch : Channel) : |prod ch| ≤ (2 ^ 31 - 1) * 2 ^ 15 := by
  have hamp : (ch.amp.toNat : Int) ≤ 2 ^ 31 - 1 := by have := ch.amp.isLt; omega
  calc |prod ch| = (ch.amp.toNat : Int) * |sinq (angle ch)| := by rw [prod, abs_mul, Nat.abs_cast]
    _ ≤ (2 ^ 31 - 1) * 2 ^ 15 := mul_le_mul hamp (abs_sinq_le _) (abs_nonneg _) (by norm_num)

/-- The shift by 15 is the floor of the quotient by 32768. -/
theorem scaled_floor (ch : Channel) : scaled ch * 32768 ≤ prod ch ∧ prod ch < (scaled ch + 1) * 32768 := by
  have h : scaled ch = prod ch / 32768 := rfl
  omega

theorem abs_scaled_le (ch : Channel) : |scaled ch| ≤ 2 ^ 31 := by
  have hfloor := scaled_floor ch
  have hprod := abs_le.mp (abs_prod_le ch)
  exact abs_le.mpr (by omega)

theorem abs_raw_lt (ch : Channel) : |raw ch| < 2 ^ 32 + 2 ^ 31 := by
  have hscaled := abs_le.mp (abs_scaled_le ch)
  have hlo : -2 ^ 31 ≤ s32 ch.center := BitVec.le_toInt ch.center
  have hhi : s32 ch.center < 2 ^ 31 := BitVec.toInt_lt
  exact abs_lt.mpr (by simp only [raw]; omega)

/-- Settles O49: the product is bounded by the factors' bounds, the shift divides it by 2^15, and the center adds 2^31. -/
theorem scalingIsExact : Obligations.ScalingIsExact := by
  refine ⟨fun ch => ?_, rfl, rfl⟩
  obtain ⟨hlo, hhi⟩ := scaled_floor ch
  exact ⟨rfl, abs_prod_le ch, (abs_prod_le ch).trans_lt (by norm_num), hlo, hhi, rfl, abs_raw_lt ch⟩

/-- Settles O50: the clamped value is at most the full scale, so 16 bits hold it. -/
theorem sampleIsClamped : Obligations.SampleIsClamped := by
  intro ch
  have hmax := (sample_le ch).trans (maxOf_le ch.mode)
  exact ⟨by rw [sample_toNat, sampleValue, maxOf_eq]; rfl, by omega⟩

/-! ### The table and the sine (O47, R105) -/

/-- The Taylor polynomial of the sine with its first `n` terms, over the rationals (where it is evaluated) or the reals. -/
def sineTaylor {K : Type} [DivisionRing K] (n : Nat) (x : K) : K :=
  ∑ k ∈ Finset.range n, (-1) ^ k * x ^ (2 * k + 1) / ((2 * k + 1).factorial : K)

theorem cast_sineTaylor (n : Nat) (x : ℚ) : ((sineTaylor n x : ℚ) : ℝ) = sineTaylor n (x : ℝ) := by
  simp [sineTaylor]

/-- The imaginary part of the exponential's Taylor polynomial at `x * I` is the sine's. -/
theorem im_sum_expTaylor (n : Nat) (x : ℝ) :
    (∑ m ∈ Finset.range (2 * n), (x * Complex.I) ^ m / (m.factorial : ℂ)).im = sineTaylor n x := by
  induction n with
  | zero => simp [sineTaylor]
  | succ n ih =>
    have heven : (x * Complex.I) ^ (2 * n) = (((-1) ^ n * x ^ (2 * n) : ℝ) : ℂ) := by
      rw [mul_pow, pow_mul Complex.I, Complex.I_sq]; push_cast; ring
    have hodd : (x * Complex.I) ^ (2 * n + 1) = (((-1) ^ n * x ^ (2 * n + 1) : ℝ) : ℂ) * Complex.I := by
      rw [pow_succ, heven]; push_cast; ring
    rw [show 2 * (n + 1) = 2 * n + 1 + 1 from rfl, Finset.sum_range_succ, Finset.sum_range_succ, heven, hodd,
      Complex.add_im, Complex.add_im, ih, sineTaylor, sineTaylor, Finset.sum_range_succ]
    simp only [Complex.div_natCast_im, Complex.im_ofReal_mul, Complex.ofReal_im, Complex.I_im, zero_div, add_zero,
      mul_one]

/-- The remainder of the sine's Taylor polynomial. -/
theorem abs_sin_sub_sineTaylor_le {n : Nat} {x : ℝ} (h : |x| / (2 * n).succ ≤ 1 / 2) :
    |Real.sin x - sineTaylor n x| ≤ |x| ^ (2 * n) / (2 * n).factorial * 2 := by
  have hnorm : ‖(x : ℂ) * Complex.I‖ = |x| := by simp
  calc |Real.sin x - sineTaylor n x|
      = |(Complex.exp (x * Complex.I) - ∑ m ∈ Finset.range (2 * n), (x * Complex.I) ^ m / (m.factorial : ℂ)).im| := by
        rw [Complex.sub_im, Complex.exp_ofReal_mul_I_im, im_sum_expTaylor]
    _ ≤ _ := Complex.abs_im_le_norm _
    _ ≤ |x| ^ (2 * n) / (2 * n).factorial * 2 := by
        rw [← hnorm]; exact Complex.exp_bound' (by rwa [hnorm])

/-- pi to 20 decimals, rounded down. -/
def piDigits : ℚ := 3.14159265358979323846

/-- The approximation of `sin (pi * i / 512)`, by rational arithmetic. -/
def sineApprox (i : Nat) : ℚ := sineTaylor 9 (piDigits * i / 512)

theorem abs_pi_sub_piDigits_le : |Real.pi - piDigits| ≤ 1 / 10 ^ 20 := by
  have hlo := Real.pi_gt_d20
  have hhi := Real.pi_lt_d20
  rw [abs_le, piDigits]
  push_cast
  constructor <;> linarith

section approximation
variable {i : Nat} (hi : i ≤ 256)
include hi

/-- The decimals of pi move an angle of the first quadrant by no more than pi itself. -/
theorem abs_angle_sub_le : |Real.pi * i / 512 - piDigits * i / 512| ≤ 1 / 10 ^ 20 := by
  have hi : (i : ℝ) / 512 ≤ 1 := by rw [div_le_one (by norm_num)]; exact_mod_cast (by omega : i ≤ 512)
  calc |Real.pi * i / 512 - piDigits * i / 512|
      = |Real.pi - piDigits| * (i / 512) := by
        rw [← sub_div, ← sub_mul, mul_div_assoc, abs_mul, abs_of_nonneg (by positivity : (0 : ℝ) ≤ i / 512)]
    _ ≤ 1 / 10 ^ 20 * 1 := mul_le_mul abs_pi_sub_piDigits_le hi (by positivity) (by positivity)
    _ = 1 / 10 ^ 20 := mul_one _

/-- Nine terms of the Taylor polynomial are enough for an angle of the first quadrant. -/
theorem abs_sin_piDigits_sub_sineApprox_le :
    |Real.sin (piDigits * i / 512) - sineApprox i| ≤ 1.6 ^ 18 / Nat.factorial 18 * 2 := by
  have hi : (i : ℝ) ≤ 256 := by exact_mod_cast hi
  have hangle : |(piDigits * i / 512 : ℝ)| ≤ 1.6 := by
    rw [abs_of_nonneg (by simp only [piDigits]; positivity), piDigits]
    push_cast
    linarith
  rw [sineApprox, cast_sineTaylor]
  push_cast
  refine (abs_sin_sub_sineTaylor_le ?_).trans ?_
  · norm_num; linarith
  · gcongr

theorem abs_sin_sub_sineApprox_le : |Real.sin (Real.pi * i / 512) - sineApprox i| ≤ 1 / 10 ^ 11 :=
  calc |Real.sin (Real.pi * i / 512) - sineApprox i|
      ≤ |Real.sin (Real.pi * i / 512) - Real.sin (piDigits * i / 512)| +
          |Real.sin (piDigits * i / 512) - sineApprox i| := abs_sub_le _ _ _
    _ ≤ 1 / 10 ^ 20 + 1.6 ^ 18 / Nat.factorial 18 * 2 :=
        add_le_add ((Real.abs_sin_sub_sin_le _ _).trans (abs_angle_sub_le hi)) (abs_sin_piDigits_sub_sineApprox_le hi)
    _ ≤ 1 / 10 ^ 11 := by norm_num [Nat.factorial]

end approximation

/-- The table check, one rational evaluation per entry: 0.003602 is the 0.0036 of R105 and a margin for the error of the
approximation, which is at most 32768 / 10^11. -/
theorem lut_near_sineApprox : ∀ i : Nat, i < 257 → |32768 * sineApprox i - lut i| < 1 / 2 - 0.003602 := by
  decide +kernel

/-- Each entry is nearer to the exact value than a half less 0.0036: so it is the rounded value, and no tie is near. -/
theorem abs_sine_sub_lut_lt {i : Nat} (hi : i ≤ 256) :
    |32768 * Real.sin (Real.pi * i / 512) - lut i| < 1 / 2 - 0.0036 := by
  have happrox := abs_le.mp (abs_sin_sub_sineApprox_le hi)
  have hcheck : |32768 * (sineApprox i : ℝ) - lut i| < ((1 / 2 - 0.003602 : ℚ) : ℝ) := by
    exact_mod_cast lut_near_sineApprox i (by omega)
  push_cast at hcheck
  rw [abs_lt] at hcheck ⊢
  constructor <;> linarith

theorem length_lutTable : lutTable.length = 257 := by
  simp only [lutTable, List.length_append]
  rfl

theorem lutTable_pairwise_lt : lutTable.Pairwise (· < ·) := List.isChain_iff_pairwise.mp (by decide +kernel)

theorem lut_lt_lut {i j : Nat} (hij : i < j) (hj : j ≤ 256) : lut i < lut j := by
  have hj : j < lutTable.length := by rw [length_lutTable]; omega
  rw [lut, lut, List.getD_eq_getElem _ _ (hij.trans hj), List.getD_eq_getElem _ _ hj]
  exact List.pairwise_iff_getElem.mp lutTable_pairwise_lt i j _ _ hij

/-- A number nearer to the integer `n` than a half rounds to `n`. -/
theorem floor_add_half_eq {x : ℝ} {n : ℤ} (h : |x - n| < 1 / 2) : ⌊x + 1 / 2⌋ = n := by
  rw [abs_lt] at h
  rw [Int.floor_eq_iff]
  constructor <;> linarith

/-- A number nearer to an integer than `1/2 - d` is farther than `d` from every tie, because a tie is at least 1/2 from the
integer. -/
theorem lt_abs_sub_tie {x d : ℝ} {n : ℤ} (h : |x - n| < 1 / 2 - d) (k : ℤ) : d < |x - (k + 1 / 2)| := by
  have htie : 1 / 2 ≤ |(n : ℝ) - (k + 1 / 2)| := by
    rw [le_abs]
    rcases le_or_gt n k with hk | hk
    · have hk : (n : ℝ) ≤ k := by exact_mod_cast hk
      right; linarith
    · have hk : (k : ℝ) + 1 ≤ n := by exact_mod_cast hk
      left; linarith
  have htriangle := abs_sub_le (n : ℝ) x (k + 1 / 2)
  rw [abs_sub_comm (n : ℝ) x] at htriangle
  linarith

/-- Settles O47: every entry is within `1/2 - 0.0036` of the exact value, so it is the rounded value and no tie is near. -/
theorem tableIsTheRoundedSine : Obligations.TableIsTheRoundedSine := by
  refine ⟨length_lutTable, fun i hi => ?rounded, fun i hi k => ?noTie, fun i => ?bits, rfl, rfl,
    fun _ _ => lut_lt_lut⟩
  case rounded =>
    exact (floor_add_half_eq (n := lut i) ((abs_sine_sub_lut_lt hi).trans (by norm_num))).symm
  case noTie => exact lt_abs_sub_tie (n := lut i) (abs_sine_sub_lut_lt hi) k
  case bits => exact (lut_le i).trans_lt (by decide)

/-! ### One tick and many (O41, O42, O43) -/

theorem tick_chan_of_not_wave {s : State} {c : ChanId} (h : (s.chan c).owner ≠ .wave) : (tick s).chan c = s.chan c :=
  tick_chan_of_not_active ((Channel.not_active_iff _).mpr h)

@[simp] theorem tick_chan_owner (s : State) (c : ChanId) : ((tick s).chan c).owner = (s.chan c).owner := by
  rw [tick_chan]; split <;> simp

theorem tick_chan_elapsed_of_wave {s : State} {c : ChanId} (h : (s.chan c).owner = .wave) :
    ((tick s).chan c).elapsed = (s.chan c).elapsed + 1 := by
  rw [tick_chan, advance_of_active ((Channel.active_iff _).mpr h)]; split <;> simp

theorem tick_chan_phase_of_wave {s : State} {c : ChanId} (h : (s.chan c).owner = .wave) :
    ((tick s).chan c).phase = nextPhase (s.chan c) := by
  rw [tick_chan, advance_of_active ((Channel.active_iff _).mpr h)]; split <;> simp

@[simp] theorem ticks_succ (n : Nat) (s : State) : ticks (n + 1) s = tick (ticks n s) := rfl

theorem ticks_chan_owner (n : Nat) (s : State) (c : ChanId) : ((ticks n s).chan c).owner = (s.chan c).owner := by
  induction n with
  | zero => rfl
  | succ n ih => rw [ticks_succ, tick_chan_owner, ih]

theorem ticks_chan_of_not_wave {s : State} {c : ChanId} (h : (s.chan c).owner ≠ .wave) (n : Nat) :
    (ticks n s).chan c = s.chan c := by
  induction n with
  | zero => rfl
  | succ n ih => rw [ticks_succ, tick_chan_of_not_wave (by rwa [ih]), ih]

theorem ticks_chan_elapsed_of_wave {s : State} {c : ChanId} (h : (s.chan c).owner = .wave) (n : Nat) :
    ((ticks n s).chan c).elapsed = (s.chan c).elapsed + BitVec.ofNat 32 n := by
  induction n with
  | zero => simp [ticks]
  | succ n ih =>
    rw [ticks_succ, tick_chan_elapsed_of_wave (by rwa [ticks_chan_owner]), ih, BitVec.add_assoc, BitVec.ofNat_add]
    rfl

theorem tick_updCnt_toNat {s : State} (h : s.updCnt.toNat ≤ 249) :
    (tick s).updCnt.toNat = (s.updCnt.toNat + 1) % 250 := by
  rw [tick_updCnt]
  split
  · next hlast => rw [hlast]; rfl
  · rw [BitVec.toNat_add]; simp; omega

theorem ticks_updCnt_toNat {s : State} (h : s.updCnt.toNat ≤ 249) (n : Nat) :
    (ticks n s).updCnt.toNat = (s.updCnt.toNat + n) % 250 := by
  induction n with
  | zero => exact (Nat.mod_eq_of_lt (Nat.lt_succ_of_le h)).symm
  | succ n ih => rw [ticks_succ, tick_updCnt_toNat (by rw [ih]; omega), ih]; omega

/-- Settles O42: the phase of a channel after a tick is its `nextPhase` when the channel is active. -/
theorem phaseAdvancesOnTick : Obligations.PhaseAdvancesOnTick := by
  refine ⟨fun s c hother => ?_, fun s c hwave hphase => ?_⟩
  · rw [tick_chan_of_not_wave hother]
  · rw [tick_chan_phase_of_wave hwave, nextPhase_toNat hphase]

/-- Settles O43: by induction on the ticks, none of which changes an owner. -/
theorem elapsedCountsTicks : Obligations.ElapsedCountsTicks := by
  refine ⟨fun s c n hwave => ?_, fun s c n hother => ?_, fun ch e => ?_⟩
  · rw [ticks_chan_elapsed_of_wave hwave, BitVec.toNat_add, BitVec.toNat_ofNat, Nat.add_mod_mod]
  · rw [ticks_chan_of_not_wave hother]
  · exact sample_congr rfl rfl rfl rfl rfl

/-- The events of a tick's samples for one channel, by its owner and mode. -/
theorem sampleEvents_advance (c : ChanId) (ch : Channel) :
    sampleEvents c (advance ch) =
      if decide (ch.owner = .wave) then
        [.sinkWrite c (if ch.mode = .v then .v else .i)
          (sample { ch with elapsed := ch.elapsed + 1, phase := nextPhase ch })]
      else [] := by
  rw [sampleEvents, advance_active, advance_mode, sinkOf_eq]
  by_cases h : ch.owner = .wave
  · have hactive := ch.active_iff.mpr h
    rw [if_pos hactive, if_pos (decide_eq_true h), advance_of_active hactive]
  · rw [if_neg (by rwa [ch.active_iff]), if_neg (by rwa [decide_eq_true_eq])]

/-- In a cycle of a reset block without a reset and without a bus write the step is the tick alone; only a read can have put
a word on `bus_rdata`. -/
theorem step_of_tick {s : State} (hw : s.wasReset = true) (hr : s.nextInput.rst = false) (hwe : s.nextInput.we = false)
    (ht : s.nextInput.tick = true) : ∃ w : Word, step s = .next (tick { s.beginCycle with rdata := w }) := by
  have hstep : step s = .next (tick (busRead s.nextInput s.beginCycle)) := by
    simp [step, cycle, hr, hw, busWrite, hwe, tickIf, ht]
  exact ⟨_, hstep.trans (by rw [busRead_eq])⟩

/-- Settles O41: a tick advances the active channels and samples them when the divider expires in ANALOG. -/
theorem tickEffect : Obligations.TickEffect := by
  refine ⟨fun s => ?_, fun s hw hr hwe ht => step_of_tick hw hr hwe ht, fun s n h => ticks_updCnt_toNat h n⟩
  dsimp only
  simp only [← State.updates_iff]
  refine ⟨fun c hother => tick_chan_of_not_wave hother, fun c hwave hquiet => ?quiet, fun c hwave hevent => ?sampled,
    fun hevent => ?events, fun hquiet => ?noEvents, tick_updCnt s, tick_gmode s, tick_regId s, tick_result s,
    tick_arg0 s, tick_arg1 s, tick_arg2 s⟩
  case quiet =>
    rw [tick_chan, if_neg hquiet, advance_of_active ((Channel.active_iff _).mpr hwave)]
    rfl
  case sampled =>
    have hactive := (Channel.active_iff _).mpr hwave
    rw [tick_chan, if_pos hevent, Channel.sampled, if_pos (by rwa [advance_active]), advance_of_active hactive,
      Channel.setSink_sinkOf]
    rfl
  case events =>
    rw [tick_events, if_pos hevent, map_filter_channels]
    simp only [sampleEvents_advance]
    rfl
  case noEvents => rw [tick_events, if_neg hquiet, List.append_nil]

/-! ### START_WAVE (O21, O22) -/

theorem executeCommand_startWave {w : Word} (h : w.extractLsb' 0 4 = 1#4) (s : State) :
    executeCommand w s = exec (.startWave (w.extractLsb' 4 4).toNat (w.extractLsb' 8 2).toNat) s := by
  rw [← field_eq_extractLsb', ← field_eq_extractLsb']
  exact executeCommand_of_decode (decode_startWave (by rw [opField, field_eq_extractLsb', h]; rfl)) s

section startWave
variable {ch md : Nat} {c : ChanId} {m : Mode} {s : State}

theorem exec_startWave_of_error {code : ResultCode} (h : checkStart ch md s = .error code) :
    exec (.startWave ch md) s = .next (s.rejectedWith code code.code) := by
  simp only [exec, execStartWave, h]
  rfl

theorem exec_startWave_of_ok (h : checkStart ch md s = .ok (c, m)) :
    exec (.startWave ch md) s = .next (startChannel c m s) := by
  simp only [exec, execStartWave, h]

theorem checkStart_register (hg : s.gmode = .register) : checkStart ch md s = .error .wrongGlobalMode := by
  simp [checkStart, hg]

theorem checkStart_badChannel (hg : s.gmode = .analog) (hch : ch = 0 ∨ 3 < ch) :
    checkStart ch md s = .error .invalidChannel := by
  simp [checkStart, hg, chanOfField_eq_none hch]

theorem checkStart_badMode (hg : s.gmode = .analog) (hmd : 1 < md) :
    checkStart c.number md s = .error .invalidMode := by
  simp [checkStart, hg, modeOfField_eq_none hmd]

theorem checkStart_badPeriod (hg : s.gmode = .analog) (hp : ¬ (1000 ≤ s.arg1.toNat ∧ s.arg1.toNat ≤ 60000)) :
    checkStart c.number m.number s = .error .invalidPeriod := by
  have hp : ¬ periodOk (periodOperand s) = true := by rwa [periodOk_iff]
  simp [checkStart, hg, hp]

theorem checkStart_badAmplitude (hg : s.gmode = .analog) (hp : 1000 ≤ s.arg1.toNat ∧ s.arg1.toNat ≤ 60000)
    (ha : s.arg0.toInt < 0) : checkStart c.number m.number s = .error .invalidAmplitude := by
  have hp : periodOk (periodOperand s) = true := (periodOk_iff _).mpr hp
  have ha : amplitudeOperand s < 0 := ha
  simp [checkStart, hg, hp, ha]

end startWave

/-- At phase 0 the sine is 0, so the sample is the clamped center (R120). -/
theorem sample_of_phase_zero {ch : Channel} (h0 : ch.phase = 0) (hp : 0 < ch.period.toNat) :
    sample ch = BitVec.ofInt 16 (min (max ch.center.toInt 0) (if ch.mode = .v then 10000 else 25000)) := by
  have hangle : angle ch = 0 := by rw [angle_inPeriod (by rw [h0]; exact hp), h0]; simp
  have hraw : raw ch = ch.center.toInt := by
    rw [raw, scaled, prod, hangle]
    simp [asr, s32]
  rw [sample, sampleValue, hraw, maxOf_eq, clamp]

/-- The first sample of a started waveform, for an accepted period. -/
def firstSample (m : Mode) (s : State) : BitVec 16 :=
  BitVec.ofInt 16 (min (max s.arg2.toInt 0) (if m = .v then 10000 else 25000))

/-- The registers START_WAVE loads, as bits of its operands (R120). -/
theorem loadWave_operands (m : Mode) (s : State) (ch : Channel) :
    loadWave m (amplitudeOperand s) (periodOperand s) (centerOperand s) ch =
      { ch with
        owner := .wave, mode := m, amp := s.arg0.setWidth 31, period := s.arg1.setWidth 16, center := s.arg2,
        phase := 0, elapsed := 0 } := by
  have hamp : BitVec.ofInt 31 s.arg0.toInt = s.arg0.setWidth 31 := by
    rw [← BitVec.signExtend_eq_setWidth_of_le _ (by decide)]; rfl
  have hperiod : BitVec.ofNat 16 s.arg1.toNat = s.arg1.setWidth 16 := rfl
  have hcenter : BitVec.ofInt 32 s.arg2.toInt = s.arg2 := BitVec.ofInt_toInt
  simp only [loadWave, ticksOf_eq, amplitudeOperand, periodOperand, centerOperand, s32, u32, hamp, hperiod, hcenter]

section accepted
variable (m : Mode) {s : State} (ch : Channel) (hp : 1000 ≤ s.arg1.toNat ∧ s.arg1.toNat ≤ 60000)
include hp

theorem period_setWidth_pos : 0 < (s.arg1.setWidth 16).toNat := by
  rw [BitVec.toNat_setWidth]; omega

/-- The registers of a started channel, written out (R120). -/
theorem startedChannel_eq :
    startedChannel m s ch =
      { ch with
        owner := .wave, mode := m, relay := if m = .v then 1 else 2, amp := s.arg0.setWidth 31,
        period := s.arg1.setWidth 16, center := s.arg2, phase := 0, elapsed := 0,
        outV := if m = .v then firstSample m s else ch.outV, outI := if m = .c then firstSample m s else ch.outI } := by
  rw [startedChannel, loadWave_operands, sample_of_phase_zero rfl (period_setWidth_pos hp), Channel.setSink_sinkOf,
    pathOf_code]
  rfl

theorem sample_startedChannel : sample (startedChannel m s ch) = firstSample m s := by
  rw [startedChannel_eq m ch hp, sample_of_phase_zero rfl (period_setWidth_pos hp), firstSample]

/-- The events of an accepted START_WAVE (R120, R213). -/
theorem startChannel_events_eq (c : ChanId) :
    (startChannel c m s).events = s.events ++
      ([Event.relaySet c (if m = .v then .rv else .rc), .sinkWrite c (if m = .v then .v else .i) (firstSample m s)] ++
        if startCode m s = .ok then [] else [.notice (startCode m s)]) := by
  rw [startChannel_events, sample_startedChannel m _ hp, pathOf_eq, sinkOf_eq]

end accepted

/-- The range warning of an accepted START_WAVE, over its operands as numbers (R122). -/
theorem startCode_eq (m : Mode) (s : State) :
    startCode m s =
      if s.arg2.toInt + s.arg0.toInt > (if m = .v then 10000 else 25000) ∨ s.arg2.toInt - s.arg0.toInt < 0 then
        .rangeWarning
      else .ok := by
  simp only [startCode, rangeWarning_iff, maxOf_eq]
  rfl

theorem startChannel_frame (c : ChanId) (m : Mode) (s : State) : CommandFrame s (startChannel c m s) where
  updCnt := by simp
  arg0 := by simp
  arg1 := by simp
  arg2 := by simp

/-- Settles O21: the checks of START_WAVE in order, then the channel it starts. -/
theorem startWaveEffect : Obligations.StartWaveEffect := by
  refine ⟨fun w s hop => executeCommand_startWave hop s,
    fun ch md s hg => exec_startWave_of_error (checkStart_register hg),
    fun ch md s hg hch => exec_startWave_of_error (checkStart_badChannel hg hch),
    fun c md s hg hmd => exec_startWave_of_error (checkStart_badMode hg hmd),
    fun c m s hg hp => exec_startWave_of_error (checkStart_badPeriod hg (by omega)),
    fun c m s hg hlo hhi ha => exec_startWave_of_error (checkStart_badAmplitude hg ⟨hlo, hhi⟩ ha),
    fun c m s hg hlo hhi ha => ?accepted⟩
  have hp := And.intro hlo hhi
  intro full warn first
  refine ⟨startChannel c m s, exec_startWave_of_ok (checkStart_ok hg ((periodOk_iff _).mpr hp) ha), ?chan, ?others,
    startChannel_gmode c m s, startChannel_regId c m s, startChannel_frame c m s, fun hwarn => ?warned,
    fun hwarn => ?unwarned⟩
  case chan => rw [startChannel_chan, if_pos rfl, startedChannel_eq m _ hp]; rfl
  case others => exact fun d hd => by rw [startChannel_chan, if_neg hd]
  case warned =>
    have hcode : startCode m s = .rangeWarning := (startCode_eq m s).trans (if_pos hwarn)
    rw [startChannel_result, startChannel_events_eq m hp, hcode]
    exact ⟨rfl, rfl⟩
  case unwarned =>
    have hcode : startCode m s = .ok := (startCode_eq m s).trans (if_neg hwarn)
    rw [startChannel_result, startChannel_events_eq m hp, hcode]
    exact ⟨rfl, rfl⟩

theorem Mode.number_of_le {md : Nat} (h : md ≤ 1) : ∃ m : Mode, md = m.number :=
  (modeField_cases md).resolve_left (by omega)

theorem ChanId.number_of_bounds {ch : Nat} (h : 1 ≤ ch ∧ ch ≤ 3) : ∃ c : ChanId, ch = c.number :=
  (chanField_cases ch).resolve_left (by omega)

/-- A code other than OK and RANGE_WARNING is neither 0 nor 1 (R210). -/
theorem ResultCode.code_of_rejection {code : ResultCode} (h : code ≠ .ok ∧ code ≠ .rangeWarning) :
    ¬ (code.code = 0 ∨ code.code = 1) := by
  revert h
  cases code <;> decide

/-- Settles O22: the checks pass exactly for the listed operands, and a check that fails leaves another code. -/
theorem startWaveAcceptance : Obligations.StartWaveAcceptance := by
  intro ch md s hg
  cases h : checkStart ch md s with
  | error code =>
    refine ⟨_, exec_startWave_of_error h, fun hcode => absurd hcode ?_, fun ⟨hch, hmd, hp, ha⟩ => ?_⟩
    · exact ResultCode.code_of_rejection (checkStart_error h)
    · obtain ⟨c, rfl⟩ := ChanId.number_of_bounds hch
      obtain ⟨m, rfl⟩ := Mode.number_of_le hmd
      rw [checkStart_ok hg ((periodOk_iff _).mpr hp) ha] at h
      cases h
  | ok p =>
    obtain ⟨c, m⟩ := p
    obtain ⟨-, rfl, rfl, hp, ha⟩ := checkStart_eq_ok h
    refine ⟨_, exec_startWave_of_ok h, fun _ => ⟨c.number_bounds, m.number_le, (periodOk_iff _).mp hp, ha⟩,
      fun _ => ?_⟩
    rw [startChannel_result]
    rcases startCode_cases m s with hcode | hcode
    · exact .inl (by rw [hcode]; rfl)
    · exact .inr (by rw [hcode]; rfl)

/-! ### STOP_WAVE (O24) -/

theorem executeCommand_stopWave {w : Word} (h : w.extractLsb' 0 4 = 2#4) (s : State) :
    executeCommand w s = exec (.stopWave (w.extractLsb' 4 4).toNat) s := by
  rw [← field_eq_extractLsb']
  exact executeCommand_of_decode (decode_stopWave (by rw [opField, field_eq_extractLsb', h]; rfl)) s

/-- A CH field names a channel to stop: by its number, or as one of all (R130). -/
abbrev stopsChan (ch : Nat) (c : ChanId) : Prop := ch = 0 ∨ ch = c.number

/-- What an accepted STOP_WAVE does: each named channel is stopped, with its events in channel order (R130, R131). -/
structure StopsNamed (ch : Nat) (s t : State) : Prop where
  result : t.result = 0
  gmode : t.gmode = s.gmode
  regId : t.regId = s.regId
  frame : CommandFrame s t
  chan : ∀ c, t.chan c = if stopsChan ch c then (s.chan c).stopped else s.chan c
  events : t.events = s.events ++
    ((if stopsChan ch .c1 then stopEvents .c1 s.ch1 else []) ++ (if stopsChan ch .c2 then stopEvents .c2 s.ch2 else []) ++
      (if stopsChan ch .c3 then stopEvents .c3 s.ch3 else []))

theorem stopsNamed_all (s : State) : StopsNamed 0 s (accept .ok (forChans stopOne s)) where
  result := accept_result _ _
  gmode := by simp
  regId := by simp
  frame := ⟨by simp, by simp, by simp, by simp⟩
  chan c := by simp [stopAll_chan]
  events := by simp [stopAll_events, stopsChan]

theorem stopsChan_number_iff (c d : ChanId) : stopsChan c.number d ↔ d = c := by
  cases c <;> cases d <;> decide

theorem stopsNamed_one (c : ChanId) (s : State) : StopsNamed c.number s (accept .ok (stopOne c s)) where
  result := accept_result _ _
  gmode := by simp
  regId := by simp
  frame := ⟨by simp, by simp, by simp, by simp⟩
  chan d := by
    simp only [accept_chan, stopOne_chan, stopsChan_number_iff]
    split
    · next h => rw [h]
    · rfl
  events := by
    simp only [stopsChan_number_iff]
    cases c <;> simp

/-- In ANALOG a STOP_WAVE of channel 0 to 3 is accepted. -/
theorem exec_stopWave_accepted {ch : Nat} {s : State} (hg : s.gmode = .analog) (hch : ch ≤ 3) :
    ∃ t, exec (.stopWave ch) s = .next t ∧ StopsNamed ch s t := by
  rcases Nat.eq_zero_or_pos ch with rfl | hpos
  · exact ⟨_, by simp [exec, execStopWave, hg], stopsNamed_all s⟩
  · obtain ⟨c, rfl⟩ := ChanId.number_of_bounds ⟨hpos, hch⟩
    exact ⟨_, by simp [exec, execStopWave, hg, hpos.ne'], stopsNamed_one c s⟩

/-- The zero write of a channel that is named and active. -/
theorem stopEvents_named (ch : Nat) (c : ChanId) (r : Channel) :
    (if stopsChan ch c then stopEvents c r else []) =
      if decide (stopsChan ch c ∧ r.owner = .wave) then [.sinkWrite c (if r.mode = .v then .v else .i) 0] else [] := by
  simp only [stopEvents, Channel.active, sinkOf_eq, decide_eq_true_eq, ite_and]

/-- Settles O24: both rejections, and `StopsNamed` with each stopped channel and its zero write written out. -/
theorem stopWaveEffect : Obligations.StopWaveEffect := by
  refine ⟨fun w s hop => executeCommand_stopWave hop s, fun ch s hg => ?register, fun ch s hg hch => ?badChannel,
    fun ch s hg hch => ?accepted⟩
  case register => simp only [exec, execStopWave, hg]; rfl
  case badChannel =>
    have hne : ch ≠ 0 := by omega
    simp only [exec, execStopWave, hg, chanOfField_eq_none (.inr hch), hne]
    rfl
  case accepted =>
    obtain ⟨t, hexec, ht⟩ := exec_stopWave_accepted hg hch
    refine ⟨t, hexec, ht.result, ht.gmode, ht.regId, ht.frame, fun c hnamed hwave => ?_, fun c hnot => ?_, ?_⟩
    · rw [ht.chan, if_pos hnamed, Channel.stopped_eq, if_pos hwave]
    · rw [ht.chan, Channel.stopped_eq, ← ite_and, if_neg hnot]
    · rw [ht.events, map_filter_channels]
      simp only [stopEvents_named]
      rfl

end Sys2Proof.Machine

namespace Sys2Proof.Machine

/-! ### SET_MANUAL (O26) -/

theorem executeCommand_setManual {w : Word} (h : w.extractLsb' 0 4 = 3#4) (s : State) :
    executeCommand w s = exec (.setManual (w.extractLsb' 4 4).toNat (w.extractLsb' 8 2).toNat) s := by
  rw [← field_eq_extractLsb', ← field_eq_extractLsb']
  exact executeCommand_of_decode (decode_setManual (by rw [opField, field_eq_extractLsb', h]; rfl)) s

section setManual
variable {ch md : Nat} {c : ChanId} {m : Mode} {s : State}

theorem exec_setManual_of_error {code : ResultCode} (h : checkSet ch md s = .error code) :
    exec (.setManual ch md) s = .next (s.rejectedWith code code.code) := by
  simp only [exec, execSetManual, h]
  rfl

theorem exec_setManual_of_ok (h : checkSet ch md s = .ok (c, m)) :
    exec (.setManual ch md) s = .next (setChannel c m s) := by
  simp only [exec, execSetManual, h]

theorem checkSet_register (hg : s.gmode = .register) : checkSet ch md s = .error .wrongGlobalMode := by
  simp [checkSet, hg]

theorem checkSet_badChannel (hg : s.gmode = .analog) (hch : ch = 0 ∨ 3 < ch) :
    checkSet ch md s = .error .invalidChannel := by
  simp [checkSet, hg, chanOfField_eq_none hch]

theorem checkSet_badMode (hg : s.gmode = .analog) (hmd : 1 < md) : checkSet c.number md s = .error .invalidMode := by
  simp [checkSet, hg, modeOfField_eq_none hmd]

theorem checkSet_badValue (hg : s.gmode = .analog) (hv : ¬ valueOk m (valueOperand s) = true) :
    checkSet c.number m.number s = .error .valueOutOfRange := by
  simp [checkSet, hg, hv]

/-- The range check of SET_MANUAL over its operand as a number (R155). -/
theorem valueOk_operand_iff (m : Mode) (s : State) :
    valueOk m (valueOperand s) = true ↔ 0 ≤ s.arg0.toInt ∧ s.arg0.toInt ≤ if m = .v then 10000 else 25000 := by
  rw [valueOk_iff, maxOf_eq]
  rfl

end setManual

/-- The driven value is the low half of the operand (R154). -/
theorem setValue_eq (s : State) : setValue s = s.arg0.setWidth 16 := by
  rw [← BitVec.signExtend_eq_setWidth_of_le _ (by decide)]
  rfl

/-- The registers of the channel SET_MANUAL takes, written out: the sink of the other mode is zeroed if a waveform was
running there (R131, R154). -/
theorem setChannelRegs_eq (m : Mode) (v : BitVec 16) (ch : Channel) :
    setChannelRegs m v ch =
      { ch with
        owner := .manual, mode := m, relay := if m = .v then 1 else 2,
        outV := if m = .v then v else if ch.owner = .wave ∧ ch.mode = .v then 0 else ch.outV,
        outI := if m = .c then v else if ch.owner = .wave ∧ ch.mode = .c then 0 else ch.outI, manual := v } := by
  rw [setChannelRegs, Channel.setSink_sinkOf, pathOf_code, Channel.stopped_eq]
  by_cases h : ch.owner = .wave
  · simp only [h, if_true, true_and]
  · simp only [h, if_false, false_and]

/-- The zero write of stopping a channel, by its owner and mode (R131). -/
theorem stopEvents_eq (c : ChanId) (ch : Channel) :
    stopEvents c ch = if ch.owner = .wave then [.sinkWrite c (if ch.mode = .v then .v else .i) 0] else [] := by
  simp only [stopEvents, ch.active_iff, sinkOf_eq]

/-- The same zero write, as a case for each sink (R154). -/
theorem stopEvents_eq_by_sink (c : ChanId) (ch : Channel) :
    stopEvents c ch =
      if ch.owner = .wave ∧ ch.mode = .v then [.sinkWrite c .v 0]
      else if ch.owner = .wave ∧ ch.mode = .c then [.sinkWrite c .i 0] else [] := by
  rw [stopEvents_eq]
  by_cases h : ch.owner = .wave
  · cases hm : ch.mode <;> simp [h]
  · simp only [h, if_false, false_and]

theorem setChannel_frame (c : ChanId) (m : Mode) (s : State) : CommandFrame s (setChannel c m s) where
  updCnt := by simp
  arg0 := by simp
  arg1 := by simp
  arg2 := by simp

/-- Settles O26: the checks of SET_MANUAL in order, then the channel it takes. -/
theorem setManualEffect : Obligations.SetManualEffect := by
  refine ⟨fun w s hop => executeCommand_setManual hop s,
    fun ch md s hg => exec_setManual_of_error (checkSet_register hg),
    fun ch md s hg hch => exec_setManual_of_error (checkSet_badChannel hg hch),
    fun c md s hg hmd => exec_setManual_of_error (checkSet_badMode hg hmd),
    fun c m s hg hv => exec_setManual_of_error (checkSet_badValue hg ?badValue),
    fun c m s hg hlo hhi => ?accepted⟩
  case badValue =>
    rw [valueOk_operand_iff]
    omega
  case accepted =>
    intro v wasV wasI
    refine ⟨setChannel c m s, exec_setManual_of_ok (checkSet_ok hg ((valueOk_operand_iff m s).mpr ⟨hlo, hhi⟩)), ?chan,
      ?others, setChannel_gmode c m s, setChannel_regId c m s, setChannel_frame c m s, setChannel_result c m s, ?events⟩
    case chan => rw [setChannel_chan, if_pos rfl, setChannelRegs_eq, setValue_eq]
    case others => exact fun d hd => by rw [setChannel_chan, if_neg hd]
    case events => rw [setChannel_events, stopEvents_eq_by_sink, pathOf_eq, sinkOf_eq, setValue_eq]

/-! ### ENTER_REG (O27) -/

theorem executeCommand_enterReg {w : Word} (h : w.extractLsb' 0 4 = 4#4) (s : State) :
    executeCommand w s = exec (.enterReg (w.extractLsb' 16 8).toNat) s := by
  rw [← field_eq_extractLsb']
  exact executeCommand_of_decode (decode_enterReg (by rw [opField, field_eq_extractLsb', h]; rfl)) s

section enterReg
variable {id : Nat} {s : State}

theorem exec_enterReg_register (hg : s.gmode = .register) :
    exec (.enterReg id) s = .next (s.rejectedWith .wrongGlobalMode 6) := by
  simp only [exec, execEnterReg, hg]
  rfl

theorem exec_enterReg_badIdentifier (hg : s.gmode = .analog) (hid : ¬ identifierOk id = true) :
    exec (.enterReg id) s = .next (s.rejectedWith .invalidIdentifier 7) := by
  rw [exec, execEnterReg, if_neg (not_not.mpr hg), if_pos hid]
  rfl

theorem exec_enterReg_accepted (hg : s.gmode = .analog) (hid : identifierOk id = true) :
    exec (.enterReg id) s = .next (enterRegister id s) := by
  rw [exec, execEnterReg, if_neg (not_not.mpr hg), if_neg (not_not.mpr hid)]

end enterReg

theorem enterRegister_frame (id : Nat) (s : State) : CommandFrame s (enterRegister id s) where
  updCnt := by simp
  arg0 := by simp
  arg1 := by simp
  arg2 := by simp

/-- ENTER_REG overwrites all that the stop of a channel changed (R131, R160). -/
theorem enterRegister_chan_eq (id : Nat) (s : State) (c : ChanId) :
    (enterRegister id s).chan c = { s.chan c with owner := .reg, mode := .v, relay := 0, outV := 0, outI := 0 } := by
  rw [enterRegister_chan, Channel.stopped_eq]
  split <;> rfl

/-- Settles O27: the two checks of ENTER_REG, then the forced state of every channel. -/
theorem enterRegEffect : Obligations.EnterRegEffect := by
  refine ⟨fun w s hop => executeCommand_enterReg hop s, fun id s hg => exec_enterReg_register hg,
    fun id s hg hid => exec_enterReg_badIdentifier hg ?badIdentifier, fun id s hg hlo hhi => ?accepted⟩
  case badIdentifier =>
    rw [identifierOk_iff]
    omega
  case accepted =>
    refine ⟨enterRegister id s, exec_enterReg_accepted hg ((identifierOk_iff id).mpr ⟨hlo, hhi⟩),
      enterRegister_gmode id s, ?regId, enterRegister_result id s, enterRegister_frame id s, enterRegister_chan_eq id s,
      ?events⟩
    case regId => rw [enterRegister_regId, BitVec.toNat_ofNat, Nat.mod_eq_of_lt (by omega)]
    case events =>
      rw [enterRegister_events, map_filter_channels]
      simp only [stopEvents_eq, decide_eq_true_eq]
      rfl

/-! ### EXIT_REG (O28) -/

theorem executeCommand_exitReg {w : Word} (h : w.extractLsb' 0 4 = 5#4) (s : State) :
    executeCommand w s = exec .exitReg s :=
  executeCommand_of_decode (decode_exitReg (by rw [opField, field_eq_extractLsb', h]; rfl)) s

theorem exec_exitReg_analog {s : State} (hg : s.gmode = .analog) :
    exec .exitReg s = .next (s.rejectedWith .wrongGlobalMode 6) := by
  simp only [exec, execExitReg, hg]
  rfl

theorem exec_exitReg_register {s : State} (hg : s.gmode = .register) : exec .exitReg s = .next (exitRegister s) := by
  rw [exec, execExitReg, if_neg (not_not.mpr hg), exitRegister]

theorem exitRegister_frame (s : State) : CommandFrame s (exitRegister s) where
  updCnt := rfl
  arg0 := rfl
  arg1 := rfl
  arg2 := rfl

/-- Settles O28: the check of EXIT_REG, then the state it leaves. -/
theorem exitRegEffect : Obligations.ExitRegEffect :=
  ⟨fun _ s hop => executeCommand_exitReg hop s, fun _ hg => exec_exitReg_analog hg, fun s hg =>
    ⟨exitRegister s, exec_exitReg_register hg, exitRegister_gmode s, exitRegister_regId s, exitRegister_result s,
      exitRegister_frame s, exitRegister_chan s, exitRegister_events s⟩⟩

end Sys2Proof.Machine

namespace Sys2Proof.Machine

/-! ### QUERY_STATUS (O29) -/

theorem executeCommand_queryStatus {w : Word} (h : w.extractLsb' 0 4 = 6#4) (s : State) :
    executeCommand w s = exec .queryStatus s :=
  executeCommand_of_decode (decode_queryStatus (by rw [opField, field_eq_extractLsb', h]; rfl)) s

theorem exec_queryStatus (s : State) : exec .queryStatus s = .next (queried s) := rfl

theorem queried_frame (s : State) : CommandFrame s (queried s) where
  updCnt := rfl
  arg0 := rfl
  arg1 := rfl
  arg2 := rfl

/-- The latch of an active channel holds its waveform (R190). -/
theorem snapshotOf_of_active {ch : Channel} (h : ch.active = true) :
    snapshotOf ch =
      { flags := (snapshotOf ch).flags, amp := ch.amp.setWidth 32, period := ch.period.setWidth 32, center := ch.center,
        elapsed := ch.elapsed, progress := progress ch, manual := ch.manual } := by
  simp [snapshotOf, h]

/-- The latch of a channel that is not active holds 0 in every waveform field (R190). -/
theorem snapshotOf_of_not_active {ch : Channel} (h : ch.active = false) :
    snapshotOf ch =
      { flags := (snapshotOf ch).flags, amp := 0, period := 0, center := 0, elapsed := 0, progress := 0,
        manual := ch.manual } := by
  simp [snapshotOf, h]

/-- Settles O29: QUERY_STATUS has no check, and what it latches is split by whether the channel is active. -/
theorem queryStatusEffect : Obligations.QueryStatusEffect := by
  refine ⟨fun w s hop => executeCommand_queryStatus hop s, fun s =>
    ⟨queried s, exec_queryStatus s, queried_result s, queried_events s, queried_gmode s, queried_regId s,
      queried_frame s, fun c => ⟨snapshotOf (s.chan c), queried_chan s c, ?activeFlag, getLsbD_snapshotOf_flags_mode _,
        rfl, fun hwave => ?wave, fun hother => ?other⟩⟩⟩
  case activeFlag => rw [getLsbD_snapshotOf_flags_active, Channel.active_iff]
  case wave =>
    rw [snapshotOf_of_active ((Channel.active_iff _).mpr hwave)]
    exact ⟨BitVec.toNat_setWidth_of_le (by decide), BitVec.toNat_setWidth_of_le (by decide), rfl, rfl, rfl⟩
  case other =>
    rw [snapshotOf_of_not_active ((Channel.not_active_iff _).mpr hother)]
    exact ⟨rfl, rfl, rfl, rfl, rfl⟩

/-! ### Progress and the phase over many ticks (O30) -/

@[simp] theorem tick_chan_period (s : State) (c : ChanId) : ((tick s).chan c).period = (s.chan c).period := by
  rw [tick_chan]; split <;> simp

theorem ticks_chan_period (n : Nat) (s : State) (c : ChanId) : ((ticks n s).chan c).period = (s.chan c).period := by
  induction n with
  | zero => rfl
  | succ n ih => rw [ticks_succ, tick_chan_period, ih]

/-- An active channel within its period counts its phase modulo the period (R101). -/
theorem ticks_chan_phase_of_wave {s : State} {c : ChanId} (h : (s.chan c).owner = .wave)
    (hphase : (s.chan c).phase.toNat < (s.chan c).period.toNat) (n : Nat) :
    ((ticks n s).chan c).phase.toNat = ((s.chan c).phase.toNat + n) % (s.chan c).period.toNat := by
  induction n with
  | zero => exact (Nat.mod_eq_of_lt hphase).symm
  | succ n ih =>
    have hlt : ((s.chan c).phase.toNat + n) % (s.chan c).period.toNat < (s.chan c).period.toNat :=
      Nat.mod_lt _ (by omega)
    rw [ticks_succ, tick_chan_phase_of_wave (by rwa [ticks_chan_owner]),
      nextPhase_toNat (by rwa [ih, ticks_chan_period]), ih, ticks_chan_period, ← Nat.add_assoc, ← Nat.mod_add_mod (_ + n)]
    split
    · next hwrap => rw [hwrap, Nat.mod_self]
    · exact (Nat.mod_eq_of_lt (by omega)).symm

/-- Settles O30: the scaled phase fits 16 bits as a fraction below 1; a start leaves phase and `elapsed` at 0, and from
there both count the ticks, the phase modulo the period and `elapsed` modulo 2^32. -/
theorem progressIsPhaseFraction : Obligations.ProgressIsPhaseFraction := by
  refine ⟨fun ch hphase => ?fraction, fun s c n hactive hphase helapsed hperiod hn => ?phase⟩
  case fraction =>
    have hlt : ch.phase.toNat * 65536 / ch.period.toNat < 65536 := scaled_phase_lt hphase (by decide)
    have hwidth : ch.phase.toNat < 2 ^ 16 := ch.phase.isLt
    refine ⟨?_, by omega, by omega⟩
    rw [progress_inPeriod hphase, BitVec.toNat_ofNat]
    exact Nat.mod_eq_of_lt hlt
  case phase =>
    have hwave := (Channel.active_iff _).mp hactive
    have hcount : ((ticks n s).chan c).elapsed.toNat = n := by
      rw [ticks_chan_elapsed_of_wave hwave, helapsed, zero_add, BitVec.toNat_ofNat, Nat.mod_eq_of_lt hn]
    have hzero : (s.chan c).phase.toNat = 0 := by rw [hphase]; rfl
    rw [hcount, ticks_chan_period, ticks_chan_phase_of_wave hwave (by omega), hzero, Nat.zero_add]

end Sys2Proof.Machine

namespace Sys2Proof.Machine

/-! ### Accepted or rejected (O31) -/

/-- A command is accepted with OK or RANGE_WARNING, or it is rejected (R211). -/
theorem CommandResult.accepted_or_rejected {i : Instr} {s t : State} (h : CommandResult i s t) :
    t.result = 0 ∨ t.result = 1 ∨ ∃ code : ResultCode, (code ≠ .ok ∧ code ≠ .rangeWarning) ∧ t = reject code s := by
  cases h with
  | rejected code hc => exact .inr (.inr ⟨code, hc, rfl⟩)
  | started c m =>
    rw [startChannel_result]
    rcases startCode_cases m s with hcode | hcode
    · exact .inl (by rw [hcode]; rfl)
    · exact .inr (.inl (by rw [hcode]; rfl))
  | stoppedAll | stoppedOne => exact .inl (accept_result _ _)
  | set c m => exact .inl (setChannel_result c m s)
  | entered id => exact .inl (enterRegister_result id s)
  | exited => exact .inl (exitRegister_result s)
  | queried => exact .inl (queried_result s)

/-- A command word answers an outcome of its command, or the rejection of its reserved opcode (R82, R90). -/
theorem executeCommand_result (w : Word) (s : State) :
    ∃ t, executeCommand w s = .next t ∧
      ((∃ i, decode w = .ok i ∧ CommandResult i s t) ∨ t = reject .invalidOpcode s) := by
  cases hd : decode w with
  | ok i =>
    obtain ⟨t, ht, hr⟩ := exec_result i s
    exact ⟨t, (executeCommand_of_decode hd s).trans ht, .inl ⟨i, rfl, hr⟩⟩
  | error e =>
    cases e
    exact ⟨_, by simp only [executeCommand, hd], .inr rfl⟩

/-- The codes of a rejection are 2 to 9 (R210). -/
theorem ResultCode.code_bounds_of_rejection {code : ResultCode} (h : code ≠ .ok ∧ code ≠ .rangeWarning) :
    2 ≤ code.code.toNat ∧ code.code.toNat ≤ 9 := by
  revert h
  cases code <;> decide

/-- Settles O31: every outcome of a command word is an acceptance or a `reject`, which writes `result` and the notice alone. -/
theorem rejectionIsAllOrNothing : Obligations.RejectionIsAllOrNothing := by
  intro w s
  obtain ⟨t, ht, hout⟩ := executeCommand_result w s
  have hcases : t.result = 0 ∨ t.result = 1 ∨
      ∃ code : ResultCode, (code ≠ .ok ∧ code ≠ .rangeWarning) ∧ t = reject code s := by
    rcases hout with ⟨i, -, hr⟩ | hreserved
    · exact hr.accepted_or_rejected
    · exact .inr (.inr ⟨.invalidOpcode, by decide, hreserved⟩)
  refine ⟨t, ht, hcases.imp_right (Or.imp_right ?_)⟩
  rintro ⟨code, hc, rfl⟩
  obtain ⟨hlo, hhi⟩ := ResultCode.code_bounds_of_rejection hc
  exact ⟨code, hc.1, hc.2, hlo, hhi, reject_eq code s⟩

/-! ### The result code of every command (O32) -/

/-- One check of a command: its code if it fails, else what the checks after it give (R212). -/
theorem exists_result_ite {o : Host.Outcome State Fault Refusal} {p : Prop} [Decidable p] {x y : BitVec 4}
    (hfail : p → ∃ t, o = .next t ∧ t.result = x) (hpass : ¬ p → ∃ t, o = .next t ∧ t.result = y) :
    ∃ t, o = .next t ∧ t.result = if p then x else y := by
  split
  · next h => exact hfail h
  · next h => exact hpass h

theorem Mode.number_eq_zero_iff (m : Mode) : m.number = 0 ↔ m = .v := by cases m <;> decide

theorem exec_stopWave_register {ch : Nat} {s : State} (hg : s.gmode = .register) :
    exec (.stopWave ch) s = .next (s.rejectedWith .wrongGlobalMode 6) := by
  simp only [exec, execStopWave, hg]
  rfl

theorem exec_stopWave_badChannel {ch : Nat} {s : State} (hg : s.gmode = .analog) (hch : 3 < ch) :
    exec (.stopWave ch) s = .next (s.rejectedWith .invalidChannel 2) := by
  have hne : ch ≠ 0 := by omega
  simp only [exec, execStopWave, hg, chanOfField_eq_none (.inr hch), hne]
  rfl

/-- Settles O32: each check in order, by the lemma that says the command fails with its code. -/
theorem resultCodesInCheckOrder : Obligations.ResultCodesInCheckOrder := by
  intro s period a m
  refine ⟨fun ch md => ?startWave, fun ch => ?stopWave, fun ch md => ?setManual, fun id => ?enterReg, ?exitReg,
    ⟨_, exec_queryStatus s, queried_result s⟩, fun w hop => ?reserved⟩
  case startWave =>
    refine exists_result_ite (fun hg => ⟨_, exec_startWave_of_error (checkStart_register hg), rfl⟩) fun hg => ?_
    have hg := GMode.ne_register hg
    refine exists_result_ite (fun hch => ⟨_, exec_startWave_of_error (checkStart_badChannel hg hch), rfl⟩) fun hch => ?_
    obtain ⟨c, rfl⟩ := (chanField_cases ch).resolve_left hch
    refine exists_result_ite (fun hmd => ⟨_, exec_startWave_of_error (checkStart_badMode hg hmd), rfl⟩) fun hmd => ?_
    obtain ⟨mode, rfl⟩ := (modeField_cases md).resolve_left hmd
    have hperiod : 1000 ≤ s.arg1.toNat ∧ s.arg1.toNat ≤ 60000 ↔ ¬ (period < 1000 ∨ 60000 < period) := by omega
    refine exists_result_ite (fun hp => ⟨_, exec_startWave_of_error (checkStart_badPeriod hg ?_), rfl⟩) fun hp => ?_
    · rwa [hperiod, not_not]
    have hp := hperiod.mpr hp
    refine exists_result_ite (fun ha => ⟨_, exec_startWave_of_error (checkStart_badAmplitude hg hp ha), rfl⟩)
      fun ha => ?_
    refine ⟨_, exec_startWave_of_ok (checkStart_ok hg ((periodOk_iff _).mpr hp) (Int.not_lt.mp ha)), ?_⟩
    rw [startChannel_result, startCode_eq, apply_ite ResultCode.code]
    simp only [Mode.number_eq_zero_iff]
    rfl
  case stopWave =>
    refine exists_result_ite (fun hg => ⟨_, exec_stopWave_register hg, rfl⟩) fun hg => ?_
    have hg := GMode.ne_register hg
    refine exists_result_ite (fun hch => ⟨_, exec_stopWave_badChannel hg hch, rfl⟩) fun hch => ?_
    obtain ⟨t, hexec, ht⟩ := exec_stopWave_accepted hg (Nat.le_of_not_lt hch)
    exact ⟨t, hexec, ht.result⟩
  case setManual =>
    refine exists_result_ite (fun hg => ⟨_, exec_setManual_of_error (checkSet_register hg), rfl⟩) fun hg => ?_
    have hg := GMode.ne_register hg
    refine exists_result_ite (fun hch => ⟨_, exec_setManual_of_error (checkSet_badChannel hg hch), rfl⟩) fun hch => ?_
    obtain ⟨c, rfl⟩ := (chanField_cases ch).resolve_left hch
    refine exists_result_ite (fun hmd => ⟨_, exec_setManual_of_error (checkSet_badMode hg hmd), rfl⟩) fun hmd => ?_
    obtain ⟨mode, rfl⟩ := (modeField_cases md).resolve_left hmd
    have hvalue : valueOk mode (valueOperand s) = true ↔ ¬ (a < 0 ∨ (if mode.number = 0 then 10000 else 25000) < a) := by
      simp only [valueOk_operand_iff, Mode.number_eq_zero_iff]
      omega
    refine exists_result_ite (fun hv => ⟨_, exec_setManual_of_error (checkSet_badValue hg ?_), rfl⟩) fun hv => ?_
    · rwa [hvalue, not_not]
    exact ⟨_, exec_setManual_of_ok (checkSet_ok hg (hvalue.mpr hv)), setChannel_result c mode s⟩
  case enterReg =>
    refine exists_result_ite (fun hg => ⟨_, exec_enterReg_register hg, rfl⟩) fun hg => ?_
    have hg := GMode.ne_register hg
    have hidentifier : identifierOk id = true ↔ ¬ (id < 1 ∨ 247 < id) := by
      rw [identifierOk_iff]
      omega
    refine exists_result_ite (fun hid => ⟨_, exec_enterReg_badIdentifier hg ?_, rfl⟩) fun hid => ?_
    · rwa [hidentifier, not_not]
    exact ⟨_, exec_enterReg_accepted hg (hidentifier.mpr hid), enterRegister_result id s⟩
  case exitReg =>
    refine exists_result_ite (fun hg => ⟨_, exec_exitReg_analog hg, rfl⟩) fun hg => ?_
    exact ⟨_, exec_exitReg_register (GMode.ne_analog hg), exitRegister_result s⟩
  case reserved =>
    rw [← field_eq_extractLsb'] at hop
    exact ⟨_, executeCommand_reserved hop s, reject_result _ _⟩

end Sys2Proof.Machine

namespace Sys2Proof.Machine

/-! ### The reset cycle (O10) -/

theorem step_of_reset {s : State} (hr : s.nextInput.rst = true) : step s = .next (resetCycle s.beginCycle) := if_pos hr

/-- Settles O10: the step is `resetCycle`, whose channels are reset and whose events are `safeEvents`; the ports follow. -/
theorem resetOverridesEverything : Obligations.ResetOverridesEverything := by
  intro s inp rest hinputs hrst
  have hevents : (resetCycle s.beginCycle).events = safeEvents := by
    rw [resetCycle_events, State.beginCycle_events, List.nil_append]
  have hreset : (resetCycle s.beginCycle).wasReset = true := resetCycle_wasReset _
  refine ⟨resetCycle s.beginCycle, step_of_reset (by rwa [State.nextInput_of_cons hinputs]), rfl, rfl, rfl, rfl, rfl, rfl,
    rfl, resetCycle_chan _, hevents, fun c k => ?strobe, ?noNotice⟩
  case strobe => exact (writeStrobe_iff hreset c k).mpr ⟨0, hevents ▸ sinkWrite_mem_safeEvents c k⟩
  case noNotice => rw [noticeValid_of_wasReset hreset, hevents]; rfl

/-! ### A bus write or read and a tick in one cycle (O9) -/

/-- In a cycle of a reset block without a reset, the step is the tick, if there is one, of what the bus write leaves (R245). -/
theorem step_of_busWrite {s t : State} (hw : s.wasReset = true) (hr : s.nextInput.rst = false)
    (ht : busWrite s.nextInput (busRead s.nextInput s.beginCycle) = .next t) :
    step s = .next (tickIf s.nextInput t) := by
  simp [step, cycle, hr, hw, ht]

/-- An accepted START_WAVE is one that starts the channel its fields name (R120). -/
theorem startChannel_of_accepted {ch md : Nat} {s t : State} (hexec : exec (.startWave ch md) s = .next t)
    (haccepted : t.result = 0 ∨ t.result = 1) :
    ∃ c m, ch = c.number ∧ (1000 ≤ s.arg1.toNat ∧ s.arg1.toNat ≤ 60000) ∧ t = startChannel c m s := by
  cases result_of_exec hexec with
  | rejected code hcode => exact absurd haccepted (ResultCode.code_of_rejection hcode)
  | started c m _ hp _ => exact ⟨c, m, rfl, (periodOk_iff _).mp hp, rfl⟩

/-- An accepted SET_MANUAL is one that takes the channel its fields name (R154). -/
theorem setChannel_of_accepted {ch md : Nat} {s t : State} (hexec : exec (.setManual ch md) s = .next t)
    (haccepted : t.result = 0) : ∃ c m, ch = c.number ∧ t = setChannel c m s := by
  cases result_of_exec hexec with
  | rejected code hcode => exact absurd (.inl haccepted) (ResultCode.code_of_rejection hcode)
  | set c m => exact ⟨c, m, rfl, rfl⟩

/-- An accepted ENTER_REG leaves REGISTER mode (R160). -/
theorem gmode_of_accepted_enterReg {id : Nat} {s t : State} (hexec : exec (.enterReg id) s = .next t)
    (haccepted : t.result = 0) : t.gmode = .register := by
  cases result_of_exec hexec with
  | rejected code hcode => exact absurd (.inl haccepted) (ResultCode.code_of_rejection hcode)
  | entered => rfl

theorem Channel.stopped_owner_ne_wave (ch : Channel) : ch.stopped.owner ≠ .wave := by
  rw [Channel.stopped_eq]
  split
  · simp
  · assumption

/-- In ANALOG a STOP_WAVE that names a channel leaves it without a waveform (R130, R131). -/
theorem owner_ne_wave_of_stopWave {ch : Nat} {c : ChanId} {s t : State} (hg : s.gmode = .analog) (hnamed : stopsChan ch c)
    (hexec : exec (.stopWave ch) s = .next t) : (t.chan c).owner ≠ .wave := by
  have hch : ch ≤ 3 := by
    have := c.number_bounds
    rcases hnamed with rfl | rfl <;> omega
  obtain ⟨u, hu, hstops⟩ := exec_stopWave_accepted hg hch
  cases hexec.symm.trans hu
  rw [hstops.chan, if_pos hnamed]
  exact Channel.stopped_owner_ne_wave _

/-- The sink writes of an update are those of an active channel. -/
theorem active_of_sinkWrite_mem_sampleEvents {c d : ChanId} {k : SinkKind} {v : BitVec 16} {ch : Channel}
    (h : Event.sinkWrite c k v ∈ sampleEvents d ch) : c = d ∧ ch.active = true := by
  unfold sampleEvents at h
  split at h
  · next hactive =>
    cases List.mem_singleton.mp h
    exact ⟨rfl, hactive⟩
  · cases h

/-- A tick writes no sink of a channel whose owner is not WAVE (R112). -/
theorem tick_events_of_not_wave {s : State} {c : ChanId} (h : (s.chan c).owner ≠ .wave) :
    ∃ es, (tick s).events = s.events ++ es ∧ ∀ k v, Event.sinkWrite c k v ∉ es := by
  refine ⟨_, tick_events s, fun k v hmem => ?_⟩
  have hquiet : ∀ d, Event.sinkWrite c k v ∉ sampleEvents d (advance (s.chan d)) := fun d hd => by
    obtain ⟨rfl, hactive⟩ := active_of_sinkWrite_mem_sampleEvents hd
    rw [advance_active, Channel.active_iff] at hactive
    exact h hactive
  split at hmem
  · rcases List.mem_append.mp hmem with hmem | h3
    · exact (List.mem_append.mp hmem).elim (hquiet .c1) (hquiet .c2)
    · exact hquiet .c3 h3
  · cases hmem

/-- In REGISTER mode a tick emits nothing (R114). -/
theorem tick_events_of_register {s : State} (hg : s.gmode = .register) : (tick s).events = s.events := by
  rw [tick_events, if_neg (by simp [State.updates_iff, hg]), List.append_nil]

/-- From phase 0 the next phase is 1, unless the period is 1 (R101). -/
theorem nextPhase_of_phase_zero {ch : Channel} (h0 : ch.phase = 0) (hp : ch.period.toNat ≠ 1) : nextPhase ch = 1 := by
  have hne : ¬ ch.phase.toNat + 1 = ch.period.toNat := by
    rw [h0]
    exact hp.symm
  rw [nextPhase, if_neg hne, h0]
  rfl

/-- The tick after an accepted START_WAVE counts the channel's first millisecond (R245). -/
theorem tick_startChannel {s : State} (c : ChanId) (m : Mode) (hp : 1000 ≤ s.arg1.toNat ∧ s.arg1.toNat ≤ 60000) :
    ((tick (startChannel c m s)).chan c).phase = 1 ∧ ((tick (startChannel c m s)).chan c).elapsed = 1 := by
  have hchan : (startChannel c m s).chan c = startedChannel m s (s.chan c) := by rw [startChannel_chan, if_pos rfl]
  rw [startedChannel_eq m _ hp] at hchan
  have hwave : ((startChannel c m s).chan c).owner = .wave := by rw [hchan]
  have hperiod : (s.arg1.setWidth 16).toNat ≠ 1 := by
    rw [BitVec.toNat_setWidth]
    omega
  rw [tick_chan_phase_of_wave hwave, tick_chan_elapsed_of_wave hwave, hchan]
  exact ⟨nextPhase_of_phase_zero rfl hperiod, rfl⟩

/-- Settles O9: the step is the tick of the write's outcome, and each command leaves a state whose tick is known. -/
theorem writeComesBeforeTickInACycle : Obligations.WriteComesBeforeTickInACycle := by
  intro s hw hr htick inp b
  have hstep : ∀ t, busWrite inp (busRead inp b) = .next t → step s = .next (tick t) := fun t ht => by
    rw [step_of_busWrite hw hr ht, tickIf, if_pos htick]
  refine ⟨fun hwe t ht => hstep t ?write, fun hre hwe => ⟨_, hstep (busRead inp b) ?noWrite, ?rdata⟩,
    fun c m t _ hexec hresult => ?start, fun ch c t hg hnamed hexec => ?stop, fun c m t hexec hresult => ?set,
    fun id t hexec hresult => tick_events_of_register (gmode_of_accepted_enterReg hexec hresult)⟩
  case write => rwa [busRead_of_write hwe, busWrite, if_pos hwe]
  case noWrite => simp [busWrite, hwe]
  case rdata => simp [busRead, hre, hwe, b]
  case start =>
    obtain ⟨d, m', hd, hp, rfl⟩ := startChannel_of_accepted hexec hresult
    cases ChanId.number_injective hd
    exact tick_startChannel c m' hp
  case stop => exact tick_events_of_not_wave (owner_ne_wave_of_stopWave (s := b) hg hnamed hexec)
  case set =>
    obtain ⟨d, m', hd, rfl⟩ := setChannel_of_accepted hexec hresult
    cases ChanId.number_injective hd
    refine tick_events_of_not_wave ?_
    rw [setChannel_chan, if_pos rfl, setChannelRegs_eq]
    simp

end Sys2Proof.Machine

namespace Sys2Proof

/-! ### Encoding and decoding (O1, O2, O3, O5) -/

theorem Instr.wellFormed_startWave (ch md : Nat) : (startWave ch md).wellFormed = true ↔ ch < 16 ∧ md < 4 := by
  simp [wellFormed, chanFieldFits, modeFieldFits]

theorem Instr.wellFormed_stopWave (ch : Nat) : (stopWave ch).wellFormed = true ↔ ch < 16 := by
  simp [wellFormed, chanFieldFits]

theorem Instr.wellFormed_setManual (ch md : Nat) : (setManual ch md).wellFormed = true ↔ ch < 16 ∧ md < 4 := by
  simp [wellFormed, chanFieldFits, modeFieldFits]

theorem Instr.wellFormed_enterReg (id : Nat) : (enterReg id).wellFormed = true ↔ id < 256 := by
  simp [wellFormed, idFieldFits]

/-- Settles O1: the fields of the encoded word are the command's own, and its opcode selects the command's arm. -/
theorem decodeOfEncodeIsIdentity : Obligations.DecodeOfEncodeIsIdentity := by
  intro i hwf
  cases i with
  | startWave ch md =>
    obtain ⟨hch, hmd⟩ := (Instr.wellFormed_startWave ch md).mp hwf
    obtain ⟨hop, hch, hmd, -⟩ := cmdWord_fields (op := 1) (id := 0) (by decide) hch hmd (by decide)
    rw [encode, Instr.opcode, decode_startWave hop, hch, hmd]
  | stopWave ch =>
    have hch := (Instr.wellFormed_stopWave ch).mp hwf
    obtain ⟨hop, hch, -⟩ := cmdWord_fields (op := 2) (md := 0) (id := 0) (by decide) hch (by decide) (by decide)
    rw [encode, Instr.opcode, decode_stopWave hop, hch]
  | setManual ch md =>
    obtain ⟨hch, hmd⟩ := (Instr.wellFormed_setManual ch md).mp hwf
    obtain ⟨hop, hch, hmd, -⟩ := cmdWord_fields (op := 3) (id := 0) (by decide) hch hmd (by decide)
    rw [encode, Instr.opcode, decode_setManual hop, hch, hmd]
  | enterReg id =>
    have hid := (Instr.wellFormed_enterReg id).mp hwf
    obtain ⟨hop, -, -, hid⟩ := cmdWord_fields (op := 4) (ch := 0) (md := 0) (by decide) (by decide) (by decide) hid
    rw [encode, Instr.opcode, decode_enterReg hop, hid]
  | exitReg => rfl
  | queryStatus => rfl

/-- A word that decodes to a command holds the command's opcode in `OP`. -/
theorem opField_of_decode {w : Word} {i : Instr} (h : decode w = .ok i) : opField w = i.opcode := by
  unfold decode at h
  split at h
  case h_7 => cases h
  all_goals
    next hop =>
      cases h
      exact hop

/-- A mask of the low `n` bits keeps the remainder by `2^n`. -/
theorem toNat_and_lowMask (w : Word) {mask : Word} (n : Nat) (h : mask.toNat = 2 ^ n - 1) :
    (w &&& mask).toNat = w.toNat % 2 ^ n := by
  rw [BitVec.toNat_and, h, Nat.and_two_pow_sub_one_eq_mod]

/-- The mask of `OP` and `ID` keeps the two fields in their places (R80). -/
theorem toNat_and_enterRegMask (w : Word) :
    (w &&& 0x00FF000F#32).toNat = w.toNat % 16 + w.toNat / 2 ^ 16 % 256 * 2 ^ 16 := by
  have hlow : (w.toNat &&& 0x00FF000F) % 2 ^ 16 = w.toNat % 16 := by
    rw [Nat.and_mod_two_pow, show 0x00FF000F % 2 ^ 16 = 2 ^ 4 - 1 from rfl, Nat.and_two_pow_sub_one_eq_mod]
    omega
  have hhigh : (w.toNat &&& 0x00FF000F) / 2 ^ 16 = w.toNat / 2 ^ 16 % 256 := by
    rw [Nat.and_div_two_pow]
    exact Nat.and_two_pow_sub_one_eq_mod _ 8
  rw [← hlow, ← hhigh]
  exact (Nat.mod_add_div' (w.toNat &&& 0x00FF000F) (2 ^ 16)).symm

section cmdWord
variable (w : Word)

/-- `OP`, `CH` and `MD` in their places are the word's low ten bits (R80). -/
theorem cmdWord_op_ch_md : cmdWord (opField w) (chField w) (mdField w) 0 = w &&& 0x000003FF#32 := by
  apply BitVec.eq_of_toNat_eq
  rw [toNat_and_lowMask w 10 rfl]
  simp only [cmdWord, opField, chField, mdField, field, BitVec.toNat_ofNat]
  omega

theorem cmdWord_op_ch : cmdWord (opField w) (chField w) 0 0 = w &&& 0x000000FF#32 := by
  apply BitVec.eq_of_toNat_eq
  rw [toNat_and_lowMask w 8 rfl]
  simp only [cmdWord, opField, chField, field, BitVec.toNat_ofNat]
  omega

theorem cmdWord_op_id : cmdWord (opField w) 0 0 (idField w) = w &&& 0x00FF000F#32 := by
  apply BitVec.eq_of_toNat_eq
  rw [toNat_and_enterRegMask]
  simp only [cmdWord, opField, idField, field, BitVec.toNat_ofNat]
  omega

theorem cmdWord_op : cmdWord (opField w) 0 0 0 = w &&& 0x0000000F#32 := by
  apply BitVec.eq_of_toNat_eq
  rw [toNat_and_lowMask w 4 rfl]
  simp only [cmdWord, opField, field, BitVec.toNat_ofNat]
  omega

end cmdWord

/-- Settles O2: the decoded command's fields are the word's, and each field in its place is the word masked to it. -/
theorem encodeOfDecodeKeepsUsedBits : Obligations.EncodeOfDecodeKeepsUsedBits := by
  intro w i hdecode
  have hop := opField_of_decode hdecode
  cases i with
  | startWave ch md =>
    cases (decode_startWave hop).symm.trans hdecode
    exact ⟨(Instr.wellFormed_startWave _ _).mpr ⟨chField_lt w, mdField_lt w⟩, by rw [encode, ← hop, cmdWord_op_ch_md]⟩
  | stopWave ch =>
    cases (decode_stopWave hop).symm.trans hdecode
    exact ⟨(Instr.wellFormed_stopWave _).mpr (chField_lt w), by rw [encode, ← hop, cmdWord_op_ch]⟩
  | setManual ch md =>
    cases (decode_setManual hop).symm.trans hdecode
    exact ⟨(Instr.wellFormed_setManual _ _).mpr ⟨chField_lt w, mdField_lt w⟩, by rw [encode, ← hop, cmdWord_op_ch_md]⟩
  | enterReg id =>
    cases (decode_enterReg hop).symm.trans hdecode
    exact ⟨(Instr.wellFormed_enterReg _).mpr (idField_lt w), by rw [encode, ← hop, cmdWord_op_id]⟩
  | exitReg => exact ⟨rfl, by rw [encode, ← hop, cmdWord_op]⟩
  | queryStatus => exact ⟨rfl, by rw [encode, ← hop, cmdWord_op]⟩

theorem Instr.opcode_bounds (i : Instr) : 1 ≤ i.opcode ∧ i.opcode ≤ 6 := by
  cases i <;> simp [opcode]

/-- A word whose opcode is not reserved decodes to a command. -/
theorem exists_decode_eq_ok {w : Word} (h : ¬ (opField w = 0 ∨ 7 ≤ opField w)) : ∃ i, decode w = .ok i := by
  rcases (by omega : opField w = 1 ∨ opField w = 2 ∨ opField w = 3 ∨ opField w = 4 ∨ opField w = 5 ∨ opField w = 6) with
    h | h | h | h | h | h
  · exact ⟨_, decode_startWave h⟩
  · exact ⟨_, decode_stopWave h⟩
  · exact ⟨_, decode_setManual h⟩
  · exact ⟨_, decode_enterReg h⟩
  · exact ⟨_, decode_exitReg h⟩
  · exact ⟨_, decode_queryStatus h⟩

/-- Settles O3: by whether the opcode is reserved. -/
theorem decoderIsTotalByOpcode : Obligations.DecoderIsTotalByOpcode := by
  intro w
  rw [← field_eq_extractLsb']
  by_cases hreserved : opField w = 0 ∨ 7 ≤ opField w
  · exact .inr ⟨decode_reserved hreserved, hreserved⟩
  · obtain ⟨i, hi⟩ := exists_decode_eq_ok hreserved
    have hop : field w 0 4 = i.opcode := opField_of_decode hi
    exact .inl ⟨⟨i, hi, hop.symm⟩, by rw [hop]; exact i.opcode_bounds⟩

/-- Settles O5: each word's fields are those of the row it stands in. -/
theorem exampleWordsDecode : Obligations.ExampleWordsDecode :=
  ⟨decode_startWave rfl, decode_startWave rfl, decode_startWave rfl, decode_stopWave rfl, decode_stopWave rfl,
    decode_setManual rfl, decode_setManual rfl, decode_enterReg rfl, decode_enterReg rfl, decode_enterReg rfl,
    decode_exitReg rfl, decode_queryStatus rfl⟩

end Sys2Proof

namespace Sys2Proof.Machine

/-! ### The clock cycle (O8, O12, O13, O14) -/

/-- Settles O12: every command and every step answers one of its outcomes, and each is a next state. -/
theorem everyStepCompletes : Obligations.EveryStepCompletes :=
  ⟨fun i s => (exec_result i s).imp fun _ h => h.1, fun s => (step_result s).imp fun _ h => h.1⟩

/-- Settles O8: the step is the bus write's outcome on the begun cycle, with the read's word on it where there is one. -/
theorem stepRunsDecodedCommand : Obligations.StepRunsDecodedCommand := by
  intro s inp rest hw hinputs hr b thenTick
  have hb : s.beginCycle = b := State.beginCycle_of_cons hinputs
  have hstep : step s = thenTick (busWrite inp (busRead inp b)) := by
    obtain ⟨t, ht, -⟩ := write_result inp (busRead inp b)
    have hinp := State.nextInput_of_cons hinputs
    rw [step_of_busWrite hw (by rwa [hinp]) (by rwa [hinp, hb]), ht, hinp]
    rfl
  have hwrite (hwe : inp.we = true) : step s = thenTick (regWrite inp.addr inp.wdata b) := by
    rw [hstep, busRead_of_write hwe, busWrite, if_pos hwe]
  have hread (hwe : inp.we = false) :
      step s = thenTick (.next { b with rdata := if inp.re then regRead inp.addr s else Config.freeRdata s.draws }) := by
    rw [hstep, busWrite, if_neg (by simp [hwe]), busRead_eq, hwe, ← hb, regRead_beginCycle]
    simp
  refine ⟨fun i hwe hslot hdecode => ?command, hwrite, hread, fun hwe hre htick => ?idle⟩
  case command => rw [hwrite hwe, regWrite_cmd hslot, executeCommand_of_decode hdecode]
  case idle => rw [hread hwe, hre]; simp [thenTick, htick, b]

/-- Settles O13: from the cycle without a bus write. -/
theorem busReadReturnsTheSlot : Obligations.BusReadReturnsTheSlot := by
  intro s inp rest hw hinputs hr hre hwe
  obtain ⟨-, -, hread, -⟩ := stepRunsDecodedCommand s inp rest hw hinputs hr
  have hstep := hread hwe
  rw [hre, if_pos rfl] at hstep
  refine ⟨⟨_, hstep, ?rdata⟩, fun htick => ?noTick⟩
  case rdata => split <;> simp
  case noTick => rw [hstep]; simp [htick]

/-- A cycle with a bus write does not depend on the read strobe (R71). -/
theorem cycle_double_strobe {inp : CycleIn} (hwe : inp.we = true) (re : Bool) (s : State) :
    cycle { inp with re := re } s = cycle inp s := by
  have hread : busRead { inp with re := re } s = busRead inp s :=
    (busRead_of_write (inp := { inp with re := re }) hwe s).trans (busRead_of_write hwe s).symm
  simp only [cycle, hread]
  rfl

/-- Settles O14: with a bus write the cycle is the same for both values of the read strobe. -/
theorem doubleStrobeIsPlainWrite : Obligations.DoubleStrobeIsPlainWrite := by
  intro s inp _ hwe
  have hstep (re : Bool) : step { s with inputs := { inp with re := re } :: s.inputs } =
      cycle inp { s with inputs := inp :: s.inputs }.beginCycle := cycle_double_strobe hwe re _
  obtain ⟨t, ht, -⟩ := step_result { s with inputs := { inp with re := true } :: s.inputs }
  exact ⟨t, t, ht, by rw [hstep, ← hstep true, ht], rfl⟩

end Sys2Proof.Machine

namespace Sys2Proof.Machine

/-! ### The registers a command changes -/

/-- What a command leaves of channel `c` of `s`: the channel as it is, or the one change the command makes to a channel whose
turn it is. -/
inductive ChannelResult (s : State) (c : ChanId) : Instr → Channel → Prop where
  | kept (i : Instr) : ChannelResult s c i (s.chan c)
  | started (m : Mode) (hg : s.gmode = .analog) (hp : 1000 ≤ s.arg1.toNat ∧ s.arg1.toNat ≤ 60000) :
      ChannelResult s c (.startWave c.number m.number) (startedChannel m s (s.chan c))
  | stopped (ch : Nat) (hg : s.gmode = .analog) (hnamed : stopsChan ch c) :
      ChannelResult s c (.stopWave ch) (s.chan c).stopped
  | set (m : Mode) (hg : s.gmode = .analog) (hv : valueOk m (valueOperand s) = true) :
      ChannelResult s c (.setManual c.number m.number) (setChannelRegs m (setValue s) (s.chan c))
  | entered (id : Nat) (hg : s.gmode = .analog) :
      ChannelResult s c (.enterReg id) { s.chan c with owner := .reg, mode := .v, relay := 0, outV := 0, outI := 0 }
  | exited (hg : s.gmode = .register) : ChannelResult s c .exitReg { s.chan c with owner := .none }
  | queried : ChannelResult s c .queryStatus { s.chan c with snap := snapshotOf (s.chan c) }

/-- Every outcome of a command leaves one of these of each channel. -/
theorem CommandResult.chan {i : Instr} {s t : State} (h : CommandResult i s t) (c : ChanId) :
    ChannelResult s c i (t.chan c) := by
  cases h with
  | rejected code => rw [reject_chan]; exact .kept i
  | started d m hg hp =>
    rw [startChannel_chan]
    split
    · next hd => subst hd; exact .started m hg ((periodOk_iff _).mp hp)
    · exact .kept _
  | stoppedAll hg => rw [accept_chan, stopAll_chan]; exact .stopped 0 hg (.inl rfl)
  | stoppedOne d hg =>
    rw [accept_chan, stopOne_chan]
    split
    · next hd => subst hd; exact .stopped _ hg (.inr rfl)
    · exact .kept _
  | set d m hg hv =>
    rw [setChannel_chan]
    split
    · next hd => subst hd; exact .set m hg hv
    · exact .kept _
  | entered id hg => rw [enterRegister_chan_eq]; exact .entered id hg
  | exited hg => rw [exitRegister_chan]; exact .exited hg
  | queried => rw [queried_chan]; exact .queried

namespace ChannelResult

variable {s : State} {c : ChanId} {i : Instr} {ch : Channel} (h : ChannelResult s c i ch)
include h

theorem owner_of_query (h6 : i.opcode = 6) : ch.owner = (s.chan c).owner := by
  cases h with
  | kept | queried => rfl
  | started | stopped | set | entered | exited => cases h6

theorem mode_relay (h1 : i.opcode ≠ 1) (h3 : i.opcode ≠ 3) (h4 : i.opcode ≠ 4) :
    ch.mode = (s.chan c).mode ∧ ch.relay = (s.chan c).relay := by
  cases h with
  | kept | exited | queried => exact ⟨rfl, rfl⟩
  | started => exact absurd rfl h1
  | stopped => rw [Channel.stopped_eq]; split <;> exact ⟨rfl, rfl⟩
  | set => exact absurd rfl h3
  | entered => exact absurd rfl h4

theorem sinks (h56 : i.opcode = 5 ∨ i.opcode = 6) : ch.outV = (s.chan c).outV ∧ ch.outI = (s.chan c).outI := by
  cases h with
  | kept | exited | queried => exact ⟨rfl, rfl⟩
  | started | stopped | set | entered => exact absurd h56 (by simp [Instr.opcode])

theorem manual (h3 : i.opcode ≠ 3) : ch.manual = (s.chan c).manual := by
  cases h with
  | kept | entered | exited | queried => rfl
  | started m _ hp => rw [startedChannel_eq m _ hp]
  | stopped => rw [Channel.stopped_eq]; split <;> rfl
  | set => exact absurd rfl h3

theorem snap (h6 : i.opcode ≠ 6) : ch.snap = (s.chan c).snap := by
  cases h with
  | kept | entered | exited => rfl
  | started m _ hp => rw [startedChannel_eq m _ hp]
  | stopped => rw [Channel.stopped_eq]; split <;> rfl
  | set => rw [setChannelRegs_eq]
  | queried => exact absurd rfl h6

theorem waveform (h1 : i.opcode ≠ 1) :
    ch.amp = (s.chan c).amp ∧ ch.period = (s.chan c).period ∧ ch.center = (s.chan c).center ∧
      ch.phase = (s.chan c).phase ∧ ch.elapsed = (s.chan c).elapsed := by
  cases h with
  | kept | entered | exited | queried => exact ⟨rfl, rfl, rfl, rfl, rfl⟩
  | started => exact absurd rfl h1
  | stopped => rw [Channel.stopped_eq]; split <;> exact ⟨rfl, rfl, rfl, rfl, rfl⟩
  | set => rw [setChannelRegs_eq]; exact ⟨rfl, rfl, rfl, rfl, rfl⟩

end ChannelResult

/-- What neither a command nor a tick touches: the model's own fields of the cycle. -/
structure CycleFrame (s t : State) : Prop where
  rdata : t.rdata = s.rdata
  draws : t.draws = s.draws
  inputs : t.inputs = s.inputs
  wasReset : t.wasReset = s.wasReset

theorem tick_cycleFrame (s : State) : CycleFrame s (tick s) := ⟨tick_rdata s, tick_draws s, tick_inputs s, tick_wasReset s⟩

namespace CommandResult

variable {i : Instr} {s t : State} (h : CommandResult i s t)
include h

theorem frame : CommandFrame s t := by
  cases h with
  | rejected => exact ⟨rfl, rfl, rfl, rfl⟩
  | started c m => exact startChannel_frame c m s
  | stoppedAll => exact (stopsNamed_all s).frame
  | stoppedOne c => exact (stopsNamed_one c s).frame
  | set c m => exact setChannel_frame c m s
  | entered id => exact enterRegister_frame id s
  | exited => exact exitRegister_frame s
  | queried => exact queried_frame s

theorem cycleFrame : CycleFrame s t := by
  cases h with
  | rejected => exact ⟨rfl, rfl, rfl, rfl⟩
  | started | stoppedAll | stoppedOne | set | entered => constructor <;> simp
  | exited | queried => exact ⟨rfl, rfl, rfl, rfl⟩

/-- A command leaves `reg_id` and does not enter REGISTER, unless it is an ENTER_REG and records its identifier. -/
theorem regId_cases :
    (t.regId = s.regId ∧ (t.gmode = .register → s.gmode = .register)) ∨
      ∃ id, i = .enterReg id ∧ (1 ≤ id ∧ id ≤ 247) ∧ t.regId.toNat = id := by
  cases h with
  | entered id _ hid =>
    have hid := (identifierOk_iff id).mp hid
    exact .inr ⟨id, rfl, hid, by rw [enterRegister_regId, BitVec.toNat_ofNat, Nat.mod_eq_of_lt (by omega)]⟩
  | exited => exact .inl ⟨exitRegister_regId s, nofun⟩
  | rejected => exact .inl ⟨reject_regId _ s, id⟩
  | started c m => exact .inl ⟨startChannel_regId c m s, fun hg => (startChannel_gmode c m s).symm.trans hg⟩
  | stoppedAll => exact .inl ⟨(stopsNamed_all s).regId, fun hg => (stopsNamed_all s).gmode.symm.trans hg⟩
  | stoppedOne c => exact .inl ⟨(stopsNamed_one c s).regId, fun hg => (stopsNamed_one c s).gmode.symm.trans hg⟩
  | set c m => exact .inl ⟨setChannel_regId c m s, fun hg => (setChannel_gmode c m s).symm.trans hg⟩
  | queried => exact .inl ⟨queried_regId s, id⟩

/-- A command leaves the mode, or it is an accepted ENTER_REG or EXIT_REG and makes its transition. -/
theorem gmode_cases :
    t.gmode = s.gmode ∨
      (∃ id, i = .enterReg id ∧ 1 ≤ id ∧ id ≤ 247 ∧ s.gmode = .analog ∧ t.gmode = .register) ∨
      (i = .exitReg ∧ s.gmode = .register ∧ t.gmode = .analog) := by
  cases h with
  | entered id hg hid =>
    obtain ⟨hlo, hhi⟩ := (identifierOk_iff id).mp hid
    exact .inr (.inl ⟨id, rfl, hlo, hhi, hg, rfl⟩)
  | exited hg => exact .inr (.inr ⟨rfl, hg, rfl⟩)
  | rejected => exact .inl (reject_gmode _ s)
  | started c m => exact .inl (startChannel_gmode c m s)
  | stoppedAll => exact .inl (stopsNamed_all s).gmode
  | stoppedOne c => exact .inl (stopsNamed_one c s).gmode
  | set c m => exact .inl (setChannel_gmode c m s)
  | queried => exact .inl (queried_gmode s)

end CommandResult

/-! ### Who writes what (O35, O36) -/

/-- Settles O35: each clause is the register's lemma about a command's outcome. -/
theorem commandsWriteOnlyTheirRegisters : Obligations.CommandsWriteOnlyTheirRegisters := by
  refine ⟨fun i s t hexec => ?command, fun s => ?tick⟩
  case command =>
    have hr := result_of_exec hexec
    obtain ⟨hrdata, hdraws, hinputs, hwasReset⟩ := hr.cycleFrame
    refine ⟨hr.frame, hrdata, hdraws, hinputs, hwasReset, fun h4 h5 => ?gmode, fun h4 => ?regId,
      fun h6 c => (hr.chan c).owner_of_query h6, fun h1 h3 h4 c => (hr.chan c).mode_relay h1 h3 h4,
      fun h56 c => (hr.chan c).sinks h56, fun h3 c => (hr.chan c).manual h3, fun h6 c => (hr.chan c).snap h6,
      fun h1 c => (hr.chan c).waveform h1⟩
    case gmode =>
      rcases hr.gmode_cases with hkept | ⟨_, rfl, _⟩ | ⟨rfl, _⟩
      · exact hkept
      · exact absurd rfl h4
      · exact absurd rfl h5
    case regId =>
      rcases hr.regId_cases with ⟨hkept, _⟩ | ⟨_, rfl, _⟩
      · exact hkept
      · exact absurd rfl h4
  case tick =>
    obtain ⟨hrdata, hdraws, hinputs, hwasReset⟩ := tick_cycleFrame s
    exact ⟨hrdata, hdraws, hinputs, hwasReset⟩

/-- Settles O36: the cases of `ChannelResult`; an accepted EXIT_REG ran in REGISTER, where invariant (b) gives every owner. -/
theorem ownershipChanges : Obligations.OwnershipChanges := by
  refine ⟨fun i s t c hexec => ?command, fun s t c hinv hexec hresult => ?exit, fun s c => tick_chan_owner s c⟩
  case command =>
    have hchan := (result_of_exec hexec).chan c
    generalize t.chan c = ch at hchan
    cases hchan with
    | kept | queried => exact .inl rfl
    | started m _ hp => exact .inr ⟨rfl, by rw [startedChannel_eq m _ hp]⟩
    | stopped n _ hnamed =>
      by_cases hwave : (s.chan c).owner = .wave
      · exact .inr ⟨hnamed, hwave, by rw [Channel.stopped_eq, if_pos hwave]⟩
      · exact .inl (by rw [Channel.stopped_eq, if_neg hwave])
    | set => exact .inr ⟨rfl, by rw [setChannelRegs_eq]⟩
    | entered | exited => exact .inr rfl
  case exit =>
    cases result_of_exec hexec with
    | rejected code hcode => exact absurd (.inl hresult) (ResultCode.code_of_rejection hcode)
    | exited hg => exact ⟨hinv.registerIffAllReg.mp hg c, by rw [exitRegister_chan]⟩

/-! ### The mode (O38) -/

@[simp] theorem tickIf_gmode (inp : CycleIn) (s : State) : (tickIf inp s).gmode = s.gmode := by
  unfold tickIf; split <;> simp

/-- A bus write changes the mode by an accepted ENTER_REG or EXIT_REG alone. -/
theorem WriteResult.gmode_cases {inp : CycleIn} {s t : State} (h : WriteResult inp s t) :
    t.gmode = s.gmode ∨
      (∃ id, inp.command? = some (.enterReg id) ∧ 1 ≤ id ∧ id ≤ 247 ∧ s.gmode = .analog ∧ t.gmode = .register) ∨
      (inp.command? = some .exitReg ∧ s.gmode = .register ∧ t.gmode = .analog) := by
  cases h with
  | command i hi hr =>
    rcases hr.gmode_cases with hkept | ⟨id, rfl, hid⟩ | ⟨rfl, hg⟩
    · exact .inl hkept
    · exact .inr (.inl ⟨id, hi, hid⟩)
    · exact .inr (.inr ⟨hi, hg⟩)
  | noWrite | reservedOpcode | arg0 | arg1 | arg2 | ignored => exact .inl rfl

/-- Settles O38: a specified step is a reset, or a bus write and then a tick, which leaves the mode. -/
theorem onlyEnterAndExitChangeMode : Obligations.OnlyEnterAndExitChangeMode := by
  intro s t hspec hstep hchanged
  rcases specified_step_cases hspec hstep with ⟨hr, _⟩ | ⟨_, _, u, hu, rfl⟩
  · exact .inl hr
  · rw [tickIf_gmode] at hchanged ⊢
    have hcases := hu.gmode_cases
    rw [busRead_gmode, State.beginCycle_gmode] at hcases
    exact .inr (hcases.resolve_left hchanged)

/-! ### Unlisted operands (O37)

The operand registers are not read by any operation of the other commands, so each of these commutes with a change of them. -/

/-- The state with other operand registers. -/
def State.withArgs (a0 a1 a2 : Word) (s : State) : State := { s with arg0 := a0, arg1 := a1, arg2 := a2 }

section withArgs
variable (a0 a1 a2 : Word) (s : State)

@[simp] theorem State.withArgs_chan (c : ChanId) : (s.withArgs a0 a1 a2).chan c = s.chan c := by cases c <;> rfl

theorem State.modChan_withArgs (c : ChanId) (f : Channel → Channel) :
    (s.withArgs a0 a1 a2).modChan c f = (s.modChan c f).withArgs a0 a1 a2 := by cases c <;> rfl

theorem emitSink_withArgs (c : ChanId) (k : SinkKind) (v : BitVec 16) :
    emitSink c k v (s.withArgs a0 a1 a2) = (emitSink c k v s).withArgs a0 a1 a2 := by
  rw [emitSink, State.modChan_withArgs]; rfl

theorem emitRelay_withArgs (c : ChanId) (p : RelayPos) :
    emitRelay c p (s.withArgs a0 a1 a2) = (emitRelay c p s).withArgs a0 a1 a2 := by
  rw [emitRelay, State.modChan_withArgs]; rfl

theorem stopOne_withArgs (c : ChanId) (s : State) : stopOne c (s.withArgs a0 a1 a2) = (stopOne c s).withArgs a0 a1 a2 := by
  unfold stopOne
  rw [State.withArgs_chan]
  split
  · rw [State.modChan_withArgs, emitSink_withArgs]
  · rfl

theorem forChans_withArgs (s : State) {f : ChanId → State → State}
    (h : ∀ c s, f c (s.withArgs a0 a1 a2) = (f c s).withArgs a0 a1 a2) :
    forChans f (s.withArgs a0 a1 a2) = (forChans f s).withArgs a0 a1 a2 := by simp only [forChans, h]

theorem safeOutputs_withArgs : safeOutputs (s.withArgs a0 a1 a2) = (safeOutputs s).withArgs a0 a1 a2 := by
  have hzero (c : ChanId) (s : State) : zeroChan c (s.withArgs a0 a1 a2) = (zeroChan c s).withArgs a0 a1 a2 := by
    simp only [zeroChan, emitSink_withArgs]
  rw [safeOutputs, forChans_withArgs a0 a1 a2 s hzero,
    forChans_withArgs a0 a1 a2 _ fun c s => emitRelay_withArgs a0 a1 a2 s c .off]
  rfl

theorem enterRegister_withArgs (id : Nat) :
    enterRegister id (s.withArgs a0 a1 a2) = (enterRegister id s).withArgs a0 a1 a2 := by
  rw [enterRegister, forChans_withArgs a0 a1 a2 s (stopOne_withArgs a0 a1 a2), safeOutputs_withArgs]
  rfl

/-- SET_MANUAL reads `arg0`, so only the other two operand registers may change. -/
theorem setChannel_withArgs (c : ChanId) (m : Mode) :
    setChannel c m (s.withArgs s.arg0 a1 a2) = (setChannel c m s).withArgs s.arg0 a1 a2 := by
  have hvalue : valueOperand (s.withArgs s.arg0 a1 a2) = valueOperand s := rfl
  simp only [setChannel, hvalue, stopOne_withArgs, State.modChan_withArgs, emitRelay_withArgs, emitSink_withArgs]
  rfl

end withArgs

theorem exec_stopWave_all {s : State} (hg : s.gmode = .analog) :
    exec (.stopWave 0) s = .next (accept .ok (forChans stopOne s)) := by
  simp [exec, execStopWave, hg]

theorem exec_stopWave_one {s : State} (c : ChanId) (hg : s.gmode = .analog) :
    exec (.stopWave c.number) s = .next (accept .ok (stopOne c s)) := by
  have hne : c.number ≠ 0 := by have := c.number_bounds; omega
  simp [exec, execStopWave, hg, hne]

/-- Settles O37: each command's check and effect commute with the change of the operand registers. -/
theorem unlistedOperandsAreIgnored : Obligations.UnlistedOperandsAreIgnored := by
  intro i s t a0 a1 a2 h1 h3 hexec
  change exec i (s.withArgs a0 a1 a2) = .next (t.withArgs a0 a1 a2)
  cases i with
  | startWave => exact absurd rfl h1
  | stopWave ch =>
    cases hg : s.gmode with
    | register =>
      cases (exec_stopWave_register hg).symm.trans hexec
      exact exec_stopWave_register hg
    | analog =>
      rcases chanField_cases ch with (rfl | hch) | ⟨c, rfl⟩
      · cases (exec_stopWave_all hg).symm.trans hexec
        rw [exec_stopWave_all (s := s.withArgs a0 a1 a2) hg, forChans_withArgs a0 a1 a2 s (stopOne_withArgs a0 a1 a2)]
        rfl
      · cases (exec_stopWave_badChannel hg hch).symm.trans hexec
        exact exec_stopWave_badChannel hg hch
      · cases (exec_stopWave_one c hg).symm.trans hexec
        rw [exec_stopWave_one (s := s.withArgs a0 a1 a2) c hg, stopOne_withArgs]
        rfl
  | setManual ch md =>
    obtain rfl : a0 = s.arg0 := h3 rfl
    cases hc : checkSet ch md s with
    | error code =>
      cases (exec_setManual_of_error hc).symm.trans hexec
      exact exec_setManual_of_error hc
    | ok p =>
      obtain ⟨c, m⟩ := p
      cases (exec_setManual_of_ok hc).symm.trans hexec
      rw [exec_setManual_of_ok (s := s.withArgs s.arg0 a1 a2) hc, setChannel_withArgs]
  | enterReg id =>
    cases hg : s.gmode with
    | register =>
      cases (exec_enterReg_register hg).symm.trans hexec
      exact exec_enterReg_register hg
    | analog =>
      by_cases hid : identifierOk id = true
      · cases (exec_enterReg_accepted hg hid).symm.trans hexec
        rw [exec_enterReg_accepted (s := s.withArgs a0 a1 a2) hg hid, enterRegister_withArgs]
      · cases (exec_enterReg_badIdentifier hg hid).symm.trans hexec
        exact exec_enterReg_badIdentifier hg hid
  | exitReg =>
    cases hg : s.gmode with
    | register =>
      cases (exec_exitReg_register hg).symm.trans hexec
      exact exec_exitReg_register hg
    | analog =>
      cases (exec_exitReg_analog hg).symm.trans hexec
      exact exec_exitReg_analog hg
  | queryStatus =>
    cases hexec
    rfl

end Sys2Proof.Machine

namespace Sys2Proof.Machine

/-! ### The invariants (O54, O55, O56)

All of R45 but the count of the divider and one half of (b) speaks of one channel under a mode, so it is kept channel by
channel: by each change a command makes to a channel, and by the two halves of a tick. -/

/-- The invariants (a) to (h) of R45 for one channel under the mode `g`, but for the half of (b) that speaks of all channels. -/
structure Channel.Ok (g : GMode) (ch : Channel) : Prop where
  safeInRegister : g = .register → ch.owner = .reg ∧ ch.outV = 0 ∧ ch.outI = 0 ∧ ch.relay = 0 ∧ ch.mode = .v
  phaseInPeriod : ch.owner = .wave →
    1000 ≤ ch.period.toNat ∧ ch.period.toNat ≤ 60000 ∧ ch.phase.toNat < ch.period.toNat
  onPath : ch.owner = .wave ∨ ch.owner = .manual → ch.relay = (pathOf ch.mode).code
  sinksInRange : ch.outV.toNat ≤ 10000 ∧ ch.outI.toNat ≤ 25000
  relayNotThree : ch.relay ≠ 3

/-- The invariants are those of each channel, and those that speak of the whole block. -/
theorem invariants_iff (s : State) :
    Invariants s ↔
      s.wasReset = true ∧ (∀ c, (s.chan c).Ok s.gmode) ∧ (s.gmode = .analog → ∃ c, (s.chan c).owner ≠ .reg) ∧
        s.updCnt.toNat ≤ 249 := by
  constructor
  · intro h
    refine ⟨h.hasBeenReset, fun c => ?channel, fun hg => ?notAllReg, h.dividerInRange⟩
    case channel =>
      refine ⟨fun hg => ⟨h.registerIffAllReg.mp hg c, h.registerIsSafe hg c⟩,
        fun hwave => h.activePhaseInPeriod c ((Channel.active_iff _).mpr hwave), fun howner => ?_, h.sinksInRange c,
        h.relayNotThree c⟩
      exact howner.elim (fun hwave => h.activeOnPath c ((Channel.active_iff _).mpr hwave)) (h.manualOnPath c)
    case notAllReg =>
      by_contra hall
      simp only [not_exists, not_not] at hall
      rw [h.registerIffAllReg.mpr hall] at hg
      cases hg
  · rintro ⟨hw, hch, hreg, hupd⟩
    have hactive (c : ChanId) := (Channel.active_iff (s.chan c)).mp
    refine ⟨hw, fun c ha => ?analog, ⟨fun hg c => ((hch c).safeInRegister hg).1, fun hall => ?register⟩,
      fun hg c => ((hch c).safeInRegister hg).2, fun c ha => (hch c).phaseInPeriod (hactive c ha),
      fun c ha => (hch c).onPath (.inl (hactive c ha)), fun c hm => (hch c).onPath (.inr hm),
      fun c => (hch c).sinksInRange, fun c => (hch c).relayNotThree, hupd⟩
    case analog =>
      refine GMode.ne_register fun hg => ?_
      have howner := ((hch c).safeInRegister hg).1
      rw [hactive c ha] at howner
      cases howner
    case register =>
      refine GMode.ne_analog fun hg => ?_
      obtain ⟨c, hc⟩ := hreg hg
      exact hc (hall c)

theorem RelayPos.code_ne_three (p : RelayPos) : p.code ≠ 3 := by cases p <;> decide

theorem Channel.ok_reset : Channel.reset.Ok .analog where
  safeInRegister := nofun
  phaseInPeriod := nofun
  onPath := nofun
  sinksInRange := by decide
  relayNotThree := by decide

/-! #### The changes of a channel keep its invariants -/

namespace Channel.Ok

variable {g : GMode} {ch : Channel}

/-- In ANALOG a sink may take any value up to the full scale of its mode. -/
theorem setSink (h : ch.Ok .analog) {m : Mode} {v : BitVec 16} (hv : (v.toNat : Int) ≤ maxOf m) :
    (ch.setSink (sinkOf m) v).Ok .analog where
  safeInRegister := nofun
  phaseInPeriod := by simpa using h.phaseInPeriod
  onPath := by simpa using h.onPath
  sinksInRange := by
    obtain ⟨hV, hI⟩ := h.sinksInRange
    cases m with
    | v => exact ⟨Int.ofNat_le.mp hv, hI⟩
    | c => exact ⟨hV, Int.ofNat_le.mp hv⟩
  relayNotThree := by simpa using h.relayNotThree

/-- A channel in ANALOG whose owner is taken away keeps its invariants. -/
theorem unowned (h : ch.Ok g) : { ch with owner := .none }.Ok .analog where
  safeInRegister := nofun
  phaseInPeriod := nofun
  onPath := nofun
  sinksInRange := h.sinksInRange
  relayNotThree := h.relayNotThree

theorem stopped (h : ch.Ok .analog) : ch.stopped.Ok .analog := by
  unfold Channel.stopped
  split
  · exact h.unowned.setSink (by cases ch.mode <;> decide)
  · exact h

theorem started (h : ch.Ok .analog) (m : Mode) {s : State} (hp : 1000 ≤ s.arg1.toNat ∧ s.arg1.toNat ≤ 60000) :
    (startedChannel m s ch).Ok .analog := by
  have hperiod : (s.arg1.setWidth 16).toNat = s.arg1.toNat := by rw [BitVec.toNat_setWidth]; omega
  have hloaded : { loadWave m (amplitudeOperand s) (periodOperand s) (centerOperand s) ch with
      relay := (pathOf m).code }.Ok .analog := by
    rw [loadWave_operands]
    refine ⟨nofun, fun _ => ?_, fun _ => rfl, h.sinksInRange, RelayPos.code_ne_three _⟩
    dsimp only
    rw [hperiod]
    exact ⟨hp.1, hp.2, Nat.lt_of_lt_of_le (by decide) hp.1⟩
  exact hloaded.setSink (sample_le _)

theorem set (h : ch.Ok .analog) {m : Mode} {v : BitVec 16} (hv : (v.toNat : Int) ≤ maxOf m) :
    (setChannelRegs m v ch).Ok .analog := by
  have htaken : { ch.stopped with owner := .manual, mode := m, relay := (pathOf m).code }.Ok .analog :=
    ⟨nofun, nofun, fun _ => rfl, h.stopped.sinksInRange, RelayPos.code_ne_three _⟩
  obtain ⟨hsafe, hphase, hpath, hsinks, hrelay⟩ := htaken.setSink hv
  exact ⟨hsafe, hphase, hpath, hsinks, hrelay⟩

theorem entered (ch : Channel) :
    { ch with owner := .reg, mode := .v, relay := 0, outV := 0, outI := 0 }.Ok .register where
  safeInRegister _ := ⟨rfl, rfl, rfl, rfl, rfl⟩
  phaseInPeriod := nofun
  onPath := nofun
  sinksInRange := ⟨Nat.zero_le _, Nat.zero_le _⟩
  relayNotThree := RelayPos.code_ne_three .off

theorem queried (h : ch.Ok g) (snap : Snapshot) : { ch with snap := snap }.Ok g := by
  obtain ⟨hsafe, hphase, hpath, hsinks, hrelay⟩ := h
  exact ⟨hsafe, hphase, hpath, hsinks, hrelay⟩

theorem advance (h : ch.Ok g) : (advance ch).Ok g where
  safeInRegister := by simpa using h.safeInRegister
  phaseInPeriod hwave := by
    rw [advance_owner] at hwave
    obtain ⟨hlo, hhi, hphase⟩ := h.phaseInPeriod hwave
    rw [advance_of_active ((Channel.active_iff _).mpr hwave)]
    exact ⟨hlo, hhi, nextPhase_lt hphase⟩
  onPath := by simpa using h.onPath
  sinksInRange := by simpa using h.sinksInRange
  relayNotThree := by simpa using h.relayNotThree

theorem sampled (h : ch.Ok .analog) : ch.sampled.Ok .analog := by
  unfold Channel.sampled
  split
  · exact h.setSink (sample_le ch)
  · exact h

end Channel.Ok

theorem setValue_le {m : Mode} {s : State} (hv : valueOk m (valueOperand s) = true) :
    ((setValue s).toNat : Int) ≤ maxOf m := by
  obtain ⟨hlo, hhi⟩ := (valueOk_iff m _).mp hv
  have hmax := maxOf_le m
  rwa [setValue, toNat_ofInt16 hlo (by omega)]

/-! #### The commands, the bus write and the tick keep the invariants -/

/-- A command keeps the invariants of each channel, under the mode it leaves. -/
theorem CommandResult.channelOk {i : Instr} {s t : State} (h : CommandResult i s t) (hs : ∀ c, (s.chan c).Ok s.gmode)
    (c : ChanId) : (t.chan c).Ok t.gmode := by
  have hc := hs c
  cases h with
  | rejected => rwa [reject_chan, reject_gmode]
  | started d m hg hp =>
    rw [startChannel_chan, startChannel_gmode, hg]
    split
    · exact (hg ▸ hs d).started m ((periodOk_iff _).mp hp)
    · exact hg ▸ hc
  | stoppedAll hg =>
    rw [accept_chan, stopAll_chan, (stopsNamed_all s).gmode, hg]
    exact (hg ▸ hc).stopped
  | stoppedOne d hg =>
    rw [accept_chan, stopOne_chan, (stopsNamed_one d s).gmode, hg]
    split
    · exact (hg ▸ hs d).stopped
    · exact hg ▸ hc
  | set d m hg hv =>
    rw [setChannel_chan, setChannel_gmode, hg]
    split
    · exact (hg ▸ hs d).set (setValue_le hv)
    · exact hg ▸ hc
  | entered id => rw [enterRegister_chan_eq]; exact .entered _
  | exited => rw [exitRegister_chan]; exact hc.unowned
  | queried => rw [queried_chan, queried_gmode]; exact hc.queried _

theorem Channel.stopped_owner_ne_reg {ch : Channel} (h : ch.owner ≠ .reg) : ch.stopped.owner ≠ .reg := by
  rw [Channel.stopped_eq]
  split
  · exact nofun
  · exact h

/-- In ANALOG no command leaves every owner REG: each of its outcomes there keeps an owner other than REG, or makes one. -/
theorem CommandResult.notAllReg {i : Instr} {s t : State} (h : CommandResult i s t)
    (hs : s.gmode = .analog → ∃ c, (s.chan c).owner ≠ .reg) (hg : t.gmode = .analog) :
    ∃ c, (t.chan c).owner ≠ .reg := by
  cases h with
  | rejected => simpa using hs hg
  | started c m _ hp =>
    refine ⟨c, ?_⟩
    rw [startChannel_chan, if_pos rfl, startedChannel_eq m _ ((periodOk_iff _).mp hp)]
    exact nofun
  | stoppedAll hgs =>
    obtain ⟨c, hc⟩ := hs hgs
    refine ⟨c, ?_⟩
    rw [accept_chan, stopAll_chan]
    exact Channel.stopped_owner_ne_reg hc
  | stoppedOne d hgs =>
    obtain ⟨c, hc⟩ := hs hgs
    refine ⟨c, ?_⟩
    rw [accept_chan, stopOne_chan]
    split
    · next hd => exact Channel.stopped_owner_ne_reg (hd ▸ hc)
    · exact hc
  | set c m =>
    refine ⟨c, ?_⟩
    rw [setChannel_chan, if_pos rfl, setChannelRegs_eq]
    exact nofun
  | entered => cases hg
  | exited => exact ⟨.c1, nofun⟩
  | queried =>
    obtain ⟨c, hc⟩ := hs hg
    exact ⟨c, by rwa [queried_chan]⟩

theorem CommandResult.invariants {i : Instr} {s t : State} (h : CommandResult i s t) (hs : Invariants s) :
    Invariants t := by
  rw [invariants_iff] at hs ⊢
  obtain ⟨hw, hch, hreg, hupd⟩ := hs
  exact ⟨h.wasReset.trans hw, h.channelOk hch, h.notAllReg hreg, by rwa [h.frame.updCnt]⟩

/-- The invariants look at the mode, the divider, the channels and whether the block has been reset, at nothing else. -/
theorem Invariants.congr {s t : State} (hs : Invariants s) (hw : t.wasReset = s.wasReset) (hg : t.gmode = s.gmode)
    (hu : t.updCnt = s.updCnt) (hc : ∀ c, t.chan c = s.chan c) : Invariants t := by
  rw [invariants_iff] at hs ⊢
  simpa only [hw, hg, hu, hc] using hs

theorem WriteResult.invariants {inp : CycleIn} {s t : State} (h : WriteResult inp s t) (hs : Invariants s) :
    Invariants t := by
  cases h with
  | noWrite | ignored => exact hs
  | command i _ hr => exact hr.invariants hs
  | reservedOpcode => exact hs.congr rfl rfl rfl fun c => reject_chan _ s c
  | arg0 | arg1 | arg2 => exact hs.congr rfl rfl rfl fun c => by cases c <;> rfl

theorem Invariants.tick {s : State} (hs : Invariants s) : Invariants (tick s) := by
  rw [invariants_iff] at hs ⊢
  obtain ⟨hw, hch, hreg, hupd⟩ := hs
  refine ⟨by rwa [tick_wasReset], fun c => ?channel, by simpa using hreg, ?divider⟩
  case channel =>
    rw [tick_chan, tick_gmode]
    split
    · next hup =>
      have hg := ((State.updates_iff s).mp hup).2
      exact hg ▸ (hg ▸ (hch c).advance : (advance (s.chan c)).Ok .analog).sampled
    · exact (hch c).advance
  case divider =>
    rw [tick_updCnt_toNat hupd]
    omega

theorem Invariants.tickIf {s : State} (hs : Invariants s) (inp : CycleIn) : Invariants (tickIf inp s) := by
  unfold Machine.tickIf
  split
  · exact hs.tick
  · exact hs

theorem invariants_resetCycle (s : State) : Invariants (resetCycle s) := by
  rw [invariants_iff]
  refine ⟨resetCycle_wasReset s, fun c => ?_, fun _ => ⟨.c1, nofun⟩, ?_⟩
  · rw [resetCycle_chan]
    exact Channel.ok_reset
  · exact Nat.zero_le 249

/-- Settles O54: the inputs stand outside what the invariants look at, and a reset cycle leaves the same registers. -/
theorem invariantsHoldAtReset : Obligations.InvariantsHoldAtReset := fun inputs =>
  (invariants_resetCycle State.reset).congr rfl rfl rfl fun c => by rw [resetCycle_chan]; cases c <;> rfl

/-- Settles O55: a reset makes the invariants, and any other step of a reset block is a bus write and a tick, which keep them. -/
theorem everyStepKeepsInvariants : Obligations.EveryStepKeepsInvariants := by
  intro s t hs hstep
  rcases specified_step_cases (.inl hs.hasBeenReset) hstep with ⟨_, rfl⟩ | ⟨_, _, u, hu, rfl⟩
  · exact invariants_resetCycle _
  · have hbegun : Invariants (busRead s.nextInput s.beginCycle) := hs.congr (by simp) (by simp) (by simp) (by simp)
    exact (hu.invariants hbegun).tickIf _

/-- Settles O56: by induction on the run, from a reset on. -/
theorem reachableStatesMeetInvariants : Obligations.ReachableStatesMeetInvariants := by
  intro s hs
  induction hs with
  | reset inputs => exact invariantsHoldAtReset inputs
  | firstReset hr hstep =>
    cases (step_of_reset hr).symm.trans hstep
    exact invariants_resetCycle _
  | step _ hstep ih => exact everyStepKeepsInvariants _ _ ih hstep

/-! ### The legal codes (O57) -/

theorem ResultCode.code_le (code : ResultCode) : code.code.toNat ≤ 9 := by cases code <;> decide

theorem LegalCodes.congr {s t : State} (hs : LegalCodes s) (hr : t.result = s.result) (hi : t.regId = s.regId)
    (hg : t.gmode = s.gmode) : LegalCodes t := by
  obtain ⟨hresult, hid, hreg⟩ := hs
  exact ⟨by rwa [hr], by rwa [hi], by rwa [hg, hi]⟩

theorem CommandResult.legalCodes {i : Instr} {s t : State} (h : CommandResult i s t) (hs : LegalCodes s) :
    LegalCodes t := by
  obtain ⟨code, hcode, -⟩ := h.notices
  have hresult : t.result.toNat ≤ 9 := by rw [hcode]; exact code.code_le
  rcases h.regId_cases with ⟨hkept, hmode⟩ | ⟨id, rfl, ⟨hlo, hhi⟩, hid⟩
  · refine ⟨hresult, ?_, fun hg => ?_⟩
    · rw [hkept]
      exact hs.identifierListed
    · rw [hkept]
      exact hs.identifierInRegister (hmode hg)
  · exact ⟨hresult, hid.trans_le hhi, fun _ => hlo.trans_eq hid.symm⟩

theorem WriteResult.legalCodes {inp : CycleIn} {s t : State} (h : WriteResult inp s t) (hs : LegalCodes s) :
    LegalCodes t := by
  cases h with
  | noWrite | ignored => exact hs
  | command i _ hr => exact hr.legalCodes hs
  | reservedOpcode => exact ⟨ResultCode.code_le _, hs.identifierListed, hs.identifierInRegister⟩
  | arg0 | arg1 | arg2 => exact hs.congr rfl rfl rfl

theorem LegalCodes.tickIf {s : State} (hs : LegalCodes s) (inp : CycleIn) : LegalCodes (tickIf inp s) := by
  unfold Machine.tickIf
  split
  · exact hs.congr (tick_result s) (tick_regId s) (tick_gmode s)
  · exact hs

theorem legalCodes_reset : LegalCodes State.reset := ⟨Nat.zero_le 9, Nat.zero_le 247, nofun⟩

/-- Settles O57: a reset makes the codes legal, and any other specified step is a bus write and a tick, which keep them so. -/
theorem everyStepKeepsLegalCodes : Obligations.EveryStepKeepsLegalCodes := by
  refine ⟨legalCodes_reset, fun s t hspec hs hstep => ?_⟩
  rcases specified_step_cases hspec hstep with ⟨_, rfl⟩ | ⟨_, _, u, hu, rfl⟩
  · exact legalCodes_reset.congr rfl rfl rfl
  · have hbegun : LegalCodes (busRead s.nextInput s.beginCycle) := hs.congr (by simp) (by simp) (by simp)
    exact (hu.legalCodes hbegun).tickIf _

/-! ### Outputs in REGISTER and in the safe state (O51, O58, O59) -/

@[simp] theorem advance_outputs (ch : Channel) : (advance ch).outputs = ch.outputs := by simp [Channel.outputs]

/-- A tick in REGISTER, or of a block without an active channel, emits nothing (R112, R114). -/
theorem tick_events_of_no_sample {s : State} (h : s.gmode = .register ∨ ∀ c, (s.chan c).active = false) :
    (tick s).events = s.events := by
  rcases h with hg | hidle
  · exact tick_events_of_register hg
  · have hquiet (c : ChanId) : sampleEvents c (advance (s.chan c)) = [] := by simp [sampleEvents, hidle c]
    rw [tick_events, ← s.chan_c1, ← s.chan_c2, ← s.chan_c3, hquiet, hquiet, hquiet]
    simp

/-- Settles O51: in REGISTER the divider's event writes no sample, and invariant (a) allows no active channel. -/
theorem updateOnlyInAnalog : Obligations.UpdateOnlyInAnalog := by
  refine ⟨fun s hg => ⟨tick_events_of_register hg, fun c => ?outputs⟩, fun s hinv hg c => ?inactive⟩
  case outputs => rw [tick_chan, if_neg (by simp [State.updates_iff, hg]), advance_outputs]
  case inactive =>
    by_contra hactive
    have hanalog := hinv.activeOnlyInAnalog c (by simpa using hactive)
    rw [hg] at hanalog
    cases hanalog

/-- Notices move no output, so a step with no other event leaves them all (R43). -/
theorem foldl_after_of_outputSilent {es : List Event} (h : OutputSilent es) (c : ChanId) (o : Outputs) :
    es.foldl (Outputs.after c) o = o := by
  induction es generalizing o with
  | nil => rfl
  | cons e es ih =>
    obtain ⟨code, rfl⟩ := e.isNotice_iff.mp (h e List.mem_cons_self)
    exact ih (fun x hx => h x (List.mem_cons_of_mem _ hx)) o

theorem outputSilent_nil : OutputSilent [] := nofun

theorem outputSilent_reject (code : ResultCode) {s : State} (h : s.events = []) : OutputSilent (reject code s).events := by
  rw [reject_events, h]
  intro e he
  cases List.mem_singleton.mp he
  rfl

/-- In REGISTER a command emits nothing but a notice, and REGISTER stays or no channel has an owner (R165, R212). -/
theorem CommandResult.silent_of_register {i : Instr} {s t : State} (h : CommandResult i s t) (hg : s.gmode = .register)
    (he : s.events = []) :
    OutputSilent t.events ∧ (t.gmode = .register ∨ ∀ c, (t.chan c).active = false) := by
  cases h with
  | rejected code => exact ⟨outputSilent_reject code he, .inl hg⟩
  | exited => exact ⟨he ▸ outputSilent_nil, .inr fun c => by rw [exitRegister_chan]; rfl⟩
  | queried => exact ⟨he ▸ outputSilent_nil, .inl hg⟩
  | started _ _ hg' | stoppedAll hg' | stoppedOne _ hg' | set _ _ hg' | entered _ hg' =>
    cases hg.symm.trans hg'

theorem WriteResult.silent_of_register {inp : CycleIn} {s t : State} (h : WriteResult inp s t) (hg : s.gmode = .register)
    (he : s.events = []) :
    OutputSilent t.events ∧ (t.gmode = .register ∨ ∀ c, (t.chan c).active = false) := by
  cases h with
  | command i _ hr => exact hr.silent_of_register hg he
  | reservedOpcode => exact ⟨outputSilent_reject _ he, .inl hg⟩
  | noWrite | ignored | arg0 | arg1 | arg2 => exact ⟨he ▸ outputSilent_nil, .inl hg⟩

theorem tickIf_events_of_no_sample {s : State} (inp : CycleIn) (h : s.gmode = .register ∨ ∀ c, (s.chan c).active = false) :
    (tickIf inp s).events = s.events := by
  unfold tickIf
  split
  · exact tick_events_of_no_sample h
  · rfl

/-- Settles O58: the step's events are notices alone, and the outputs follow the events. -/
theorem registerModeWritesNoOutput : Obligations.RegisterModeWritesNoOutput := by
  intro s t hw hg hr hstep
  have hsilent : OutputSilent t.events := by
    rcases specified_step_cases (.inl hw) hstep with ⟨hr', _⟩ | ⟨_, _, u, hu, rfl⟩
    · cases hr.symm.trans hr'
    · obtain ⟨hsilent, hquiet⟩ := hu.silent_of_register (by simpa using hg) (by simp)
      rwa [tickIf_events_of_no_sample _ hquiet]
  exact ⟨hsilent, fun c => by
    rw [outputsFollowTheEventList s t c (.inl hw) hstep, foldl_after_of_outputSilent hsilent]⟩

/-! #### The safe state -/

/-- The safe state looks at the channels alone. -/
theorem SafeState.congr {s t : State} (hs : SafeState s) (h : ∀ c, t.chan c = s.chan c) : SafeState t := fun c => by
  rw [h]
  exact hs c

theorem safeState_enterRegister (id : Nat) (s : State) : SafeState (enterRegister id s) := fun c => by
  rw [enterRegister_chan_eq]
  exact ⟨rfl, rfl, rfl, rfl⟩

/-- No channel of a safe state is active, so a tick leaves every channel (R112). -/
theorem SafeState.tickIf {s : State} (hs : SafeState s) (inp : CycleIn) : SafeState (tickIf inp s) := by
  have hinactive (c : ChanId) : (s.chan c).active = false := by
    obtain ⟨-, -, -, hinactive⟩ := hs c
    exact hinactive
  unfold Machine.tickIf
  split
  · exact hs.congr fun c => tick_chan_of_not_active (hinactive c)
  · exact hs

end Sys2Proof.Machine

namespace Sys2Proof.Machine

/-! ### The safe state until an output is driven (O59) -/

/-- A STOP_WAVE of channels that are not active changes no channel and emits nothing (R131). -/
theorem StopsNamed.of_not_wave {ch : Nat} {s t : State} (h : StopsNamed ch s t)
    (hidle : ∀ c, stopsChan ch c → (s.chan c).owner ≠ .wave) :
    (∀ c, t.chan c = s.chan c) ∧ t.events = s.events := by
  have hquiet (c : ChanId) : (if stopsChan ch c then stopEvents c (s.chan c) else []) = [] := by
    split
    · next hnamed => rw [stopEvents_eq, if_neg (hidle c hnamed)]
    · rfl
  refine ⟨fun c => ?_, ?_⟩
  · rw [h.chan]
    split
    · next hnamed => rw [Channel.stopped_eq, if_neg (hidle c hnamed)]
    · rfl
  · have hevents := h.events
    rw [← s.chan_c1, ← s.chan_c2, ← s.chan_c3, hquiet, hquiet, hquiet] at hevents
    simpa using hevents

theorem SafeState.owner_ne_wave {s : State} (hs : SafeState s) (c : ChanId) : (s.chan c).owner ≠ .wave := by
  obtain ⟨-, -, -, hinactive⟩ := hs c
  exact (Channel.not_active_iff _).mp hinactive

theorem StopsNamed.safeState {ch : Nat} {s t : State} (h : StopsNamed ch s t) (hs : SafeState s) (he : s.events = []) :
    SafeState t ∧ OutputSilent t.events := by
  obtain ⟨hchan, hevents⟩ := h.of_not_wave fun c _ => hs.owner_ne_wave c
  exact ⟨hs.congr hchan, by rw [hevents, he]; exact outputSilent_nil⟩

/-- A command that drives no output keeps the safe state, and emits nothing but a notice unless it is an accepted ENTER_REG. -/
theorem CommandResult.safeState {i : Instr} {s t : State} (h : CommandResult i s t) (hs : SafeState s) (he : s.events = [])
    (hdrives : i.drives = true → s.gmode = .register ∨ t.result ≠ 0 ∧ t.result ≠ 1) :
    SafeState t ∧ ((∀ id, i = .enterReg id → s.gmode = .register ∨ t.result ≠ 0) → OutputSilent t.events) := by
  cases h with
  | rejected code => exact ⟨hs.congr fun c => reject_chan code s c, fun _ => outputSilent_reject code he⟩
  | started c m hg =>
    rcases hdrives rfl with hg' | ⟨h0, h1⟩
    · cases hg.symm.trans hg'
    · rw [startChannel_result] at h0 h1
      rcases startCode_cases m s with hcode | hcode
      · exact absurd (by rw [hcode]; rfl) h0
      · exact absurd (by rw [hcode]; rfl) h1
  | stoppedAll =>
    obtain ⟨hsafe, hsilent⟩ := (stopsNamed_all s).safeState hs he
    exact ⟨hsafe, fun _ => hsilent⟩
  | stoppedOne c =>
    obtain ⟨hsafe, hsilent⟩ := (stopsNamed_one c s).safeState hs he
    exact ⟨hsafe, fun _ => hsilent⟩
  | set c m hg =>
    rcases hdrives rfl with hg' | ⟨h0, -⟩
    · cases hg.symm.trans hg'
    · exact absurd (setChannel_result c m s) h0
  | entered id hg =>
    refine ⟨safeState_enterRegister id s, fun hrejected => ?_⟩
    rcases hrejected id rfl with hg' | h0
    · cases hg.symm.trans hg'
    · exact absurd (enterRegister_result id s) h0
  | exited =>
    refine ⟨fun c => ?_, fun _ => he ▸ outputSilent_nil⟩
    obtain ⟨hV, hI, hrelay, -⟩ := hs c
    rw [exitRegister_chan]
    exact ⟨hV, hI, hrelay, rfl⟩
  | queried =>
    refine ⟨fun c => ?_, fun _ => he ▸ outputSilent_nil⟩
    rw [queried_chan]
    exact hs c

theorem WriteResult.safeState {inp : CycleIn} {s t : State} (h : WriteResult inp s t) (hs : SafeState s) (he : s.events = [])
    (hdrives : ∀ i, inp.command? = some i → i.drives = true → s.gmode = .register ∨ t.result ≠ 0 ∧ t.result ≠ 1) :
    SafeState t ∧
      ((∀ id, inp.command? = some (.enterReg id) → s.gmode = .register ∨ t.result ≠ 0) → OutputSilent t.events) := by
  cases h with
  | command i hi hr =>
    obtain ⟨hsafe, hsilent⟩ := hr.safeState hs he (hdrives i hi)
    exact ⟨hsafe, fun hrejected => hsilent fun id hid => hrejected id (hid ▸ hi)⟩
  | reservedOpcode => exact ⟨hs.congr fun c => reject_chan _ s c, fun _ => outputSilent_reject _ he⟩
  | noWrite | ignored => exact ⟨hs, fun _ => he ▸ outputSilent_nil⟩
  | arg0 | arg1 | arg2 => exact ⟨hs.congr fun c => by cases c <;> rfl, fun _ => he ▸ outputSilent_nil⟩

@[simp] theorem tickIf_result (inp : CycleIn) (s : State) : (tickIf inp s).result = s.result := by
  unfold tickIf; split <;> simp

/-- Settles O59: the bus write keeps the safe state, and in a safe state the tick has no active channel to sample. -/
theorem safeStateHoldsUntilDriven : Obligations.SafeStateHoldsUntilDriven := by
  refine ⟨fun id s hg hlo hhi => ?entered, fun s t hw hs hr hstep hdrives => ?kept⟩
  case entered =>
    exact ⟨enterRegister id s, exec_enterReg_accepted hg ((identifierOk_iff id).mpr ⟨hlo, hhi⟩),
      enterRegister_gmode id s, safeState_enterRegister id s⟩
  case kept =>
    rcases specified_step_cases (.inl hw) hstep with ⟨hr', _⟩ | ⟨_, _, u, hu, rfl⟩
    · cases hr.symm.trans hr'
    · rw [tickIf_result] at hdrives ⊢
      have hbegun : SafeState (busRead s.nextInput s.beginCycle) := hs.congr fun c => by simp
      have hgmode : (busRead s.nextInput s.beginCycle).gmode = s.gmode := by simp
      rw [← hgmode] at hdrives ⊢
      obtain ⟨hsafe, hsilent⟩ := hu.safeState hbegun (by simp) hdrives
      refine ⟨hsafe.tickIf _, fun hrejected => ?_⟩
      rw [tickIf_events_of_no_sample _ (.inr fun c => (Channel.not_active_iff _).mpr (hsafe.owner_ne_wave c))]
      exact hsilent hrejected

/-! ### Before the first reset (O60) -/

/-- Before the first reset no port depends on the registers (R242). -/
theorem State.port_of_unspecified {α : Type} {s : State} (h : s.wasReset = false) (free : Nat → α) (v : α) :
    s.port free v = free s.draws := by
  simp [State.port, h]

theorem step_of_unspecified {s : State} (hw : s.wasReset = false) (hr : s.nextInput.rst = false) :
    step s = .next (unspecifiedCycle s.beginCycle) := by
  simp [step, cycle, hw, hr]

/-- A step of an unspecified block keeps only the count of draws and the later inputs (log entry 22). -/
theorem unspecifiedCycle_congr {s s' : State} (hd : s.draws = s'.draws) (hi : s.inputs = s'.inputs) :
    unspecifiedCycle s = unspecifiedCycle s' := by
  rw [unspecifiedCycle, unspecifiedCycle, hd, hi]

/-- Settles O60: by the outcomes of a step, and the free value each port has until the reset. -/
theorem unspecifiedUntilFirstReset : Obligations.UnspecifiedUntilFirstReset := by
  refine ⟨fun _ => rfl, fun s t hstep => ?wasReset, fun s s' hw hw' hr hr' hd hi => ?step, fun s s' hw hw' hd => ?ports⟩
  case wasReset =>
    cases result_of_step hstep with
    | reset hr => rw [resetCycle_wasReset, hr, Bool.or_true]
    | unspecified hr hw => rw [unspecifiedCycle_wasReset, hr, hw]; rfl
    | ran hr hw hu => rw [tickIf_wasReset, hu.wasReset, busRead_wasReset, State.beginCycle_wasReset, hr, Bool.or_false]
  case step =>
    rw [step_of_unspecified hw hr, step_of_unspecified hw' hr',
      unspecifiedCycle_congr (s := s.beginCycle) (s' := s'.beginCycle) (congrArg (· + 1) hd) hi]
  case ports =>
    have hport {α : Type} (free : Nat → α) (v v' : α) : s.port free v = s'.port free v' := by
      rw [State.port_of_unspecified hw, State.port_of_unspecified hw', hd]
    have hline (p : RelayPos) (c : ChanId) : relayLine p c s = relayLine p c s' := hport _ _ _
    exact ⟨fun c k => hport _ _ _, fun c => ⟨hline .rv c, hline .rc c⟩, hport _ _ _, hport _ _ _⟩

end Sys2Proof.Machine

namespace Sys2Proof.Machine

/-! ### Reading back a started waveform (O23) -/

/-- A word that is not negative fits 31 bits, so `CH_AMP` holds all of it (R121). -/
theorem setWidth_setWidth_of_nonneg {w : Word} (h : 0 ≤ w.toInt) : (w.setWidth 31).setWidth 32 = w := by
  have hlt : w.toNat < 2 ^ 31 := by
    rw [BitVec.toInt_eq_toNat_cond] at h
    have := w.isLt
    split at h <;> omega
  apply BitVec.eq_of_toNat_eq
  simp only [BitVec.toNat_setWidth]
  omega

/-- A word of at most 60000 fits the 16 bits of `CH_PERIOD` (R121). -/
theorem setWidth_setWidth_of_le {w : Word} (h : w.toNat ≤ 60000) : (w.setWidth 16).setWidth 32 = w := by
  apply BitVec.eq_of_toNat_eq
  simp only [BitVec.toNat_setWidth]
  omega

/-- Settles O23: the started channel holds its operands in registers wide enough for them. -/
theorem startWaveReadsBack : Obligations.StartWaveReadsBack := by
  intro c m s hg hlo hhi ha
  have hp := And.intro hlo hhi
  have hchan : (startChannel c m s).chan c = startedChannel m s (s.chan c) := by rw [startChannel_chan, if_pos rfl]
  rw [startedChannel_eq m _ hp] at hchan
  refine ⟨startChannel c m s, exec_startWave_of_ok (checkStart_ok hg ((periodOk_iff _).mpr hp) ha), ?active, ?amp,
    ?period, ?center⟩
  case active => rw [hchan]; rfl
  case amp => rw [regRead_chanAddr c (by decide), hchan]; exact setWidth_setWidth_of_nonneg ha
  case period => rw [regRead_chanAddr c (by decide), hchan]; exact setWidth_setWidth_of_le hhi
  case center => rw [regRead_chanAddr c (by decide), hchan]; rfl

/-! ### Repeated commands (O25) -/

/-- A command that changes no register leaves the state it ran in, with its events appended. -/
theorem CommandResult.eq_of_unchanged {i : Instr} {s t : State} (h : CommandResult i s t) {es : List Event}
    (hg : t.gmode = s.gmode) (hid : t.regId = s.regId) (hresult : t.result = s.result)
    (hc : ∀ c, t.chan c = s.chan c) (he : t.events = s.events ++ es) : t = { s with events := s.events ++ es } := by
  obtain ⟨hupd, h0, h1, h2⟩ := h.frame
  obtain ⟨hrdata, hdraws, hinputs, hw⟩ := h.cycleFrame
  exact State.ext_chan hg hid hupd hresult h0 h1 h2 (fun c => (hc c).trans (by cases c <;> rfl)) he hrdata hdraws hinputs hw

/-- A second STOP_WAVE finds no channel of its own active (R131). -/
theorem exec_stopWave_twice {ch : Nat} {s t : State} (hg : s.gmode = .analog) (hch : ch ≤ 3)
    (hexec : exec (.stopWave ch) s = .next t) : exec (.stopWave ch) t = .next t := by
  obtain ⟨t', ht', hfirst⟩ := exec_stopWave_accepted hg hch
  cases hexec.symm.trans ht'
  obtain ⟨u, hu, hsecond⟩ := exec_stopWave_accepted (hfirst.gmode.trans hg) hch
  obtain ⟨hchan, hevents⟩ := hsecond.of_not_wave fun c hnamed => owner_ne_wave_of_stopWave hg hnamed hexec
  have heq := (result_of_exec hu).eq_of_unchanged (es := []) hsecond.gmode hsecond.regId
    (hsecond.result.trans hfirst.result.symm) hchan (by rw [hevents, List.append_nil])
  rw [hu, heq, List.append_nil]

/-- SET_MANUAL leaves the registers of a channel that it has just taken (R154). -/
theorem setChannelRegs_twice (m : Mode) (v : BitVec 16) (ch : Channel) :
    setChannelRegs m v (setChannelRegs m v ch) = setChannelRegs m v ch := by
  rw [setChannelRegs_eq m v ch, setChannelRegs_eq]
  cases m <;> simp

section setChannelTwice
variable (c : ChanId) (m : Mode) (s : State)

theorem setChannel_chan_same : (setChannel c m s).chan c = setChannelRegs m (setValue s) (s.chan c) := by
  rw [setChannel_chan, if_pos rfl]

@[simp] theorem valueOperand_setChannel : valueOperand (setChannel c m s) = valueOperand s := by
  rw [valueOperand, setChannel_arg0, valueOperand]

@[simp] theorem setValue_setChannel : setValue (setChannel c m s) = setValue s := by
  rw [setValue, valueOperand_setChannel, setValue]

theorem setChannel_twice_chan (d : ChanId) :
    (setChannel c m (setChannel c m s)).chan d = (setChannel c m s).chan d := by
  rw [setChannel_chan, setValue_setChannel, setChannel_chan_same, setChannelRegs_twice]
  split
  · next hd => rw [hd, setChannel_chan_same]
  · rfl

/-- The second SET_MANUAL finds no waveform to stop, so it emits its relay event and its sink write alone (R154). -/
theorem setChannel_twice_events :
    (setChannel c m (setChannel c m s)).events = (setChannel c m s).events ++
      [.relaySet c (if m = .v then .rv else .rc), .sinkWrite c (if m = .v then .v else .i) (s.arg0.setWidth 16)] := by
  have hmanual : stopEvents c ((setChannel c m s).chan c) = [] := by
    rw [setChannel_chan_same, setChannelRegs_eq]
    rfl
  rw [setChannel_events, hmanual, setValue_setChannel, pathOf_eq, sinkOf_eq, setValue_eq, List.nil_append]

end setChannelTwice

/-- A second QUERY_STATUS latches the same snapshot again: no snapshot looks at the one before. -/
theorem queried_twice (s : State) : queried (queried s) = queried s := rfl

theorem regWrite_twice {a : Addr} (h : slotOf a ≠ 0) {w : Word} {s t : State} (ht : regWrite a w s = .next t) :
    regWrite a w t = .next t := by
  rcases (by omega : slotOf a = 1 ∨ slotOf a = 2 ∨ slotOf a = 3 ∨ 4 ≤ slotOf a) with h1 | h2 | h3 | h4
  · cases (regWrite_arg0 h1 w s).symm.trans ht
    exact regWrite_arg0 h1 w _
  · cases (regWrite_arg1 h2 w s).symm.trans ht
    exact regWrite_arg1 h2 w _
  · cases (regWrite_arg2 h3 w s).symm.trans ht
    exact regWrite_arg2 h3 w _
  · exact regWrite_ignored h4 w t

/-- Settles O25: each command again after its first outcome, as the lemmas above say. -/
theorem repeatedCommandsChangeNothingMore : Obligations.RepeatedCommandsChangeNothingMore := by
  refine ⟨fun ch s t hg hch hexec => exec_stopWave_twice hg hch hexec, fun ch md s t hexec hresult => ?set,
    fun s t hexec => ?query, fun a w s t hslot ht => regWrite_twice (Nat.ne_of_gt hslot) ht⟩
  case set =>
    cases result_of_exec hexec with
    | rejected code hcode => exact absurd (.inl hresult) (ResultCode.code_of_rejection hcode)
    | set c m hg hv =>
      refine ⟨c, m, rfl, rfl, ?_⟩
      have hagain := exec_setManual_of_ok (s := setChannel c m s)
        (checkSet_ok (c := c) (m := m) (by rwa [setChannel_gmode]) (by rwa [valueOperand_setChannel]))
      rw [hagain, (result_of_exec hagain).eq_of_unchanged (by simp) (by simp) (by simp) (setChannel_twice_chan c m s)
        (setChannel_twice_events c m s)]
  case query =>
    cases (exec_queryStatus s).symm.trans hexec
    rw [exec_queryStatus, queried_twice]

/-! ### Notices (O33) -/

theorem no_notice_iff (es : List Event) : (∀ e ∈ es, e.isNotice = false) ↔ es.filter Event.isNotice = [] := by
  simp [List.filter_eq_nil_iff]

/-- A command's events: first those of its outputs, then the notice of its code unless that is OK (R213). -/
theorem CommandResult.events {i : Instr} {s t : State} (h : CommandResult i s t) :
    ∃ (code : ResultCode) (es : List Event), t.events = s.events ++ es ++ (if code = .ok then [] else [.notice code]) ∧
      t.result = code.code ∧ es.filter Event.isNotice = [] := by
  cases h with
  | rejected code hc => exact ⟨code, [], by simp [hc.1], rfl, rfl⟩
  | started c m =>
    exact ⟨startCode m s, _, (startChannel_events c m s).trans (List.append_assoc _ _ _).symm,
      startChannel_result c m s, rfl⟩
  | stoppedAll =>
    exact ⟨.ok, stopEvents .c1 s.ch1 ++ stopEvents .c2 s.ch2 ++ stopEvents .c3 s.ch3, by simp [stopAll_events], rfl,
      by simp⟩
  | stoppedOne c => exact ⟨.ok, stopEvents c (s.chan c), by simp, rfl, by simp⟩
  | set c m => exact ⟨.ok, _, (setChannel_events c m s).trans (List.append_nil _).symm, rfl, by simp⟩
  | entered id =>
    exact ⟨.ok, _, (enterRegister_events id s).trans ((List.append_assoc _ _ _).trans (List.append_nil _).symm), rfl,
      by simp⟩
  | exited | queried => exact ⟨.ok, [], by simp, rfl, rfl⟩

/-- The same of a command word, a reserved opcode's rejection among them. -/
theorem executeCommand_events {w : Word} {s t : State} (h : executeCommand w s = .next t) :
    ∃ es : List Event, (∀ e ∈ es, e.isNotice = false) ∧
      ((t.result = 0 ∧ t.events = s.events ++ es) ∨
        ∃ code : ResultCode, code ≠ .ok ∧ t.result = code.code ∧ t.events = s.events ++ es ++ [.notice code]) := by
  obtain ⟨u, hu, hout⟩ := executeCommand_result w s
  cases h.symm.trans hu
  rcases hout with ⟨i, -, hr⟩ | rfl
  · obtain ⟨code, es, hevents, hresult, hnone⟩ := hr.events
    refine ⟨es, (no_notice_iff es).mpr hnone, ?_⟩
    by_cases hok : code = .ok
    · exact .inl ⟨by rw [hresult, hok]; rfl, by rw [hevents, if_pos hok, List.append_nil]⟩
    · exact .inr ⟨code, hok, hresult, by rw [hevents, if_neg hok]⟩
  · exact ⟨[], nofun, .inr ⟨.invalidOpcode, nofun, rfl, by simp⟩⟩

theorem ResultCode.code_ne_zero {code : ResultCode} (h : code ≠ .ok) : code.code ≠ 0 := by
  revert h
  cases code <;> decide

/-- The samples of a tick are no notices (R112). -/
theorem tick_events_no_notice (s : State) :
    ∃ es, (tick s).events = s.events ++ es ∧ ∀ e ∈ es, e.isNotice = false := by
  refine ⟨_, tick_events s, (no_notice_iff _).mpr ?_⟩
  split <;> simp

/-- A bus write that runs no command word emits nothing (R66). -/
theorem WriteResult.events_of_no_command {inp : CycleIn} {s t : State} (h : WriteResult inp s t)
    (hno : ¬ (inp.we = true ∧ slotOf inp.addr = 0)) : t.events = s.events := by
  cases h with
  | noWrite | ignored | arg0 | arg1 | arg2 => rfl
  | command i hi =>
    obtain ⟨hwe, hslot, -⟩ := CycleIn.command?_eq_some hi
    exact absurd ⟨hwe, hslot⟩ hno
  | reservedOpcode hwe hslot => exact absurd ⟨hwe, hslot⟩ hno

theorem regWrite_events_of_no_command {a : Addr} (h : slotOf a ≠ 0) {w : Word} {s t : State}
    (ht : regWrite a w s = .next t) : t.events = s.events := by
  obtain ⟨u, hu, hr⟩ := write_result (CycleIn.write a w) s
  cases ht.symm.trans hu
  exact hr.events_of_no_command fun hrun => h hrun.2

/-- A specified step that runs no command word emits no notice. -/
theorem notices_of_no_command {s t : State} (hspec : s.specified) (hstep : step s = .next t)
    (hno : ¬ (s.nextInput.rst = false ∧ s.nextInput.we = true ∧ slotOf s.nextInput.addr = 0)) : t.notices = [] := by
  rcases specified_step_cases hspec hstep with ⟨_, rfl⟩ | ⟨hr, _, u, hu, rfl⟩
  · simp [State.notices]
  · have hevents := hu.events_of_no_command fun hrun => hno ⟨hr, hrun⟩
    rw [tickIf_notices, State.notices, hevents, busRead_events, State.beginCycle_events]
    rfl

/-- A step with a command word is that word's execution, and then the tick if there is one (R245). -/
theorem step_of_command {s t : State} (hspec : s.specified) (hstep : step s = .next t) (hr : s.nextInput.rst = false)
    (hwe : s.nextInput.we = true) (hslot : slotOf s.nextInput.addr = 0) :
    ∃ u, executeCommand s.nextInput.wdata s.beginCycle = .next u ∧ t = tickIf s.nextInput u := by
  have hw : s.wasReset = true := hspec.resolve_right (by simp [hr])
  obtain ⟨u, hu, -⟩ := executeCommand_result s.nextInput.wdata s.beginCycle
  have hwrite : busWrite s.nextInput (busRead s.nextInput s.beginCycle) = .next u := by
    rw [busRead_of_write hwe, busWrite, if_pos hwe, regWrite_cmd hslot, hu]
  cases hstep.symm.trans (step_of_busWrite hw hr hwrite)
  exact ⟨u, hu, rfl⟩

/-- The events of a cycle's tick, if it has one, stand after those of its bus write (R245). -/
theorem tickIf_events (inp : CycleIn) (s : State) :
    ∃ ts, (tickIf inp s).events = s.events ++ ts ∧ (inp.tick = false → ts = []) ∧
      (inp.tick = true → (tick s).events = s.events ++ ts) := by
  cases htick : inp.tick with
  | false => exact ⟨[], by simp [tickIf, htick], fun _ => rfl, nofun⟩
  | true => exact ⟨_, by rw [tickIf, if_pos htick, tick_events], nofun, fun _ => tick_events s⟩

/-- Settles O33: a command's events end with its notice, and neither a tick nor another bus access emits one. -/
theorem atMostOneNotice : Obligations.AtMostOneNotice := by
  refine ⟨fun w s t h => executeCommand_events h, tick_events_no_notice,
    fun a w s t hslot ht => regWrite_events_of_no_command hslot ht, fun s t hspec hstep => ?step⟩
  intro inp runsCommand notices
  have hone : notices.length ≤ 1 := notices_length_of_specified hspec hstep
  by_cases hrun : runsCommand
  · have ⟨hr, hwe, hslot⟩ := hrun
    obtain ⟨u, hu, rfl⟩ := step_of_command hspec hstep hr hwe hslot
    obtain ⟨es, hnone, hout⟩ := executeCommand_events hu
    obtain ⟨ts, hts, hnoTick, htick⟩ := tickIf_events inp u
    have hnotices : notices = u.events.filter Event.isNotice := tickIf_notices inp u
    rw [no_notice_iff] at hnone
    rw [State.beginCycle_events, List.nil_append] at hout
    rw [tickIf_result, hnotices]
    refine ⟨fun hno => absurd hrun hno, fun _ hresult => ?ok, fun _ hresult => ?notOk, hnotices ▸ hone⟩
    case ok =>
      rcases hout with ⟨-, hevents⟩ | ⟨code, hcode, hresult', -⟩
      · rw [hevents, hnone]
      · exact absurd (hresult'.symm.trans hresult) (ResultCode.code_ne_zero hcode)
    case notOk =>
      rcases hout with ⟨hresult', -⟩ | ⟨code, -, hresult', hevents⟩
      · exact absurd hresult' hresult
      · refine ⟨code, hresult'.symm, ?_, fun hidle => ?_, u, es, ts, hu, hevents, ?_, htick⟩
        · rw [hevents, List.filter_append, hnone]
          rfl
        · rw [hts, hnoTick hidle, hevents]
          simp
        · rw [hts, hevents]
  · exact ⟨fun _ => notices_of_no_command hspec hstep hrun, fun h => absurd h hrun, fun h => absurd h hrun, hone⟩

end Sys2Proof.Machine

namespace Sys2Proof.Machine

/-! ### The table at its spot values (O46) -/

/-- Settles O46: the table rises strictly, and each spot value is an entry of it or the negative of one. -/
theorem tableAndQuadrantValues : Obligations.TableAndQuadrantValues :=
  ⟨length_lutTable, fun i hi => lut_lt_lut (Nat.lt_succ_self i) hi, sinq_zero, sinq_quarter, by decide, by decide, by decide,
    by decide, by decide, by decide, by decide⟩

/-! ### The waveform's period and its quarter (O52, O53) -/

section waveform
variable (s : State) (c : ChanId)

@[simp] theorem tick_chan_amp : ((tick s).chan c).amp = (s.chan c).amp := by rw [tick_chan]; split <;> simp
@[simp] theorem tick_chan_center : ((tick s).chan c).center = (s.chan c).center := by rw [tick_chan]; split <;> simp
@[simp] theorem tick_chan_mode : ((tick s).chan c).mode = (s.chan c).mode := by rw [tick_chan]; split <;> simp

end waveform

/-- Ticks keep what one tick keeps of a channel. -/
theorem ticks_chan_field {α : Type} (g : Channel → α) (h : ∀ s c, g ((tick s).chan c) = g (s.chan c)) (n : Nat) (s : State)
    (c : ChanId) : g ((ticks n s).chan c) = g (s.chan c) := by
  induction n with
  | zero => rfl
  | succ n ih => rw [ticks_succ, h, ih]

/-- Two channels of one block, at two times, with the same phase have the same sample. -/
theorem sample_ticks_congr {s : State} {c : ChanId} {n n' : Nat}
    (h : ((ticks n s).chan c).phase = ((ticks n' s).chan c).phase) :
    sample ((ticks n s).chan c) = sample ((ticks n' s).chan c) := by
  have hsame {α : Type} (g : Channel → α) (hg : ∀ s c, g ((tick s).chan c) = g (s.chan c)) :
      g ((ticks n s).chan c) = g ((ticks n' s).chan c) :=
    (ticks_chan_field g hg n s c).trans (ticks_chan_field g hg n' s c).symm
  exact sample_congr h (hsame _ tick_chan_period) (hsame _ tick_chan_amp) (hsame _ tick_chan_center) (hsame _ tick_chan_mode)

/-- After a start the phase counts the ticks modulo the period (R101). -/
theorem ticks_chan_phase_of_start {s : State} {c : ChanId} (hwave : (s.chan c).owner = .wave) (h0 : (s.chan c).phase = 0)
    (hp : 0 < (s.chan c).period.toNat) (n : Nat) : ((ticks n s).chan c).phase.toNat = n % (s.chan c).period.toNat := by
  have hzero : (s.chan c).phase.toNat = 0 := by rw [h0]; rfl
  rw [ticks_chan_phase_of_wave hwave (by omega), hzero, Nat.zero_add]

/-- Settles O52: the phase counts modulo the period, and the sample depends on the phase and on registers no tick changes. -/
theorem waveformIsExactlyPeriodic : Obligations.WaveformIsExactlyPeriodic := by
  refine ⟨fun s c n hwave h0 hp => ticks_chan_phase_of_start hwave h0 hp n, fun s c n hactive hphase => ?_⟩
  have hwave := (Channel.active_iff _).mp hactive
  have hsame : ((ticks (n + (s.chan c).period.toNat) s).chan c).phase = ((ticks n s).chan c).phase := by
    apply BitVec.eq_of_toNat_eq
    rw [ticks_chan_phase_of_wave hwave hphase, ticks_chan_phase_of_wave hwave hphase, ← Nat.add_assoc, Nat.add_mod_right]
  exact ⟨sample_ticks_congr hsame, hsame⟩

theorem raw_of_angle_zero {ch : Channel} (h : angle ch = 0#10) : raw ch = ch.center.toInt := by
  rw [raw, scaled, prod, h, sinq_zero]
  simp [asr, s32]

/-- At a quarter of the circle the sine is 1, so the raw value is center plus amplitude exactly. -/
theorem raw_of_angle_quarter {ch : Channel} (h : angle ch = 256#10) : raw ch = ch.center.toInt + ch.amp.toNat := by
  rw [raw, scaled, prod, h, sinq_quarter, asr, s32]
  exact congrArg (ch.center.toInt + ·) (Int.mul_ediv_cancel _ (by decide))

theorem angle_of_phase_zero {ch : Channel} (h0 : ch.phase.toNat = 0) (hp : 0 < ch.period.toNat) : angle ch = 0#10 := by
  rw [angle_inPeriod (by omega), h0, Nat.zero_mul, Nat.zero_div]

theorem angle_of_quarter_phase {ch : Channel} (hphase : ch.phase.toNat = ch.period.toNat / 4)
    (h4 : ch.period.toNat % 4 = 0) (hp : 0 < ch.period.toNat) : angle ch = 256#10 := by
  have hquotient : ch.phase.toNat * 1024 / ch.period.toNat = 256 :=
    Nat.div_eq_of_eq_mul_left hp (by omega)
  rw [angle_inPeriod (by omega), hquotient]

/-- Settles O53: a start's angle is 0, and a quarter period later it is a quarter of the circle. -/
theorem startAndQuarterPeriodSamples : Obligations.StartAndQuarterPeriodSamples := by
  intro s c hactive h0 hp full
  have hwave := (Channel.active_iff _).mp hactive
  refine ⟨?start, fun h4 => ?quarter⟩
  case start =>
    obtain ⟨hsample, -⟩ := sampleIsClamped (s.chan c)
    rw [hsample, raw_of_angle_zero (angle_of_phase_zero (by rw [h0]; rfl) hp)]
  case quarter =>
    obtain ⟨hsample, -⟩ := sampleIsClamped ((ticks ((s.chan c).period.toNat / 4) s).chan c)
    have hphase := ticks_chan_phase_of_start hwave h0 hp ((s.chan c).period.toNat / 4)
    rw [Nat.mod_eq_of_lt (by omega)] at hphase
    have hangle := angle_of_quarter_phase (ch := (ticks ((s.chan c).period.toNat / 4) s).chan c)
      (by rw [hphase, ticks_chan_period]) (by rwa [ticks_chan_period]) (by rwa [ticks_chan_period])
    rw [hsample, raw_of_angle_quarter hangle, ticks_chan_field Channel.mode tick_chan_mode,
      ticks_chan_field Channel.center tick_chan_center, ticks_chan_field Channel.amp tick_chan_amp]

/-! ### The distance from the ideal sine wave (O48)

Three errors add up: the floor of the shift, less than 1; the rounding of the table, half of 2^-15 for each unit of amplitude;
and the floor of the angle, at most one of its 1024 steps. -/

/-- In the second quarter the sine falls as it rose in the first. -/
theorem sin_second_quarter {i : Nat} (hi : i ≤ 256) :
    Real.sin (Real.pi * (256 + i : ℕ) / 512) = Real.sin (Real.pi * (256 - i : ℕ) / 512) := by
  rw [← Real.sin_pi_sub]
  congr 1
  push_cast [hi]
  ring

/-- The second half of the circle is the negative of the first. -/
theorem sin_second_half (i : Nat) : Real.sin (Real.pi * (512 + i : ℕ) / 512) = -Real.sin (Real.pi * i / 512) := by
  rw [← Real.sin_add_pi]
  congr 1
  push_cast
  ring

/-- The table's rounding: `sinq` is within a half of 2^15 times the sine of its angle. -/
theorem abs_sine_sub_sinq_lt (a : BitVec 10) : |32768 * Real.sin (Real.pi * a.toNat / 512) - (sinq a : ℝ)| < 1 / 2 := by
  have hnear {i : Nat} (hi : i ≤ 256) : |32768 * Real.sin (Real.pi * i / 512) - lut i| < 1 / 2 :=
    (abs_sine_sub_lut_lt hi).trans (by norm_num)
  have hneg (x y : ℝ) : |32768 * -x - -y| = |32768 * x - y| := by rw [← abs_neg]; congr 1; ring
  have ha := a.isLt
  have hi : a.toNat % 256 ≤ 256 := by omega
  unfold sinq
  split
  next h =>
    have hquarter : a.toNat = a.toNat % 256 := by omega
    rw [hquarter, Nat.mod_mod, Int.cast_natCast]
    exact hnear hi
  next h =>
    have hquarter : a.toNat = 256 + a.toNat % 256 := by omega
    rw [congrArg Nat.cast hquarter, sin_second_quarter hi, Int.cast_natCast]
    exact hnear (Nat.sub_le 256 _)
  next h =>
    have hquarter : a.toNat = 512 + a.toNat % 256 := by omega
    rw [congrArg Nat.cast hquarter, sin_second_half, Int.cast_neg, Int.cast_natCast, hneg]
    exact hnear hi
  next h0 h1 h2 =>
    have h0 : a.toNat / 256 ≠ 0 := h0
    have h1 : a.toNat / 256 ≠ 1 := h1
    have h2 : a.toNat / 256 ≠ 2 := h2
    have hquarter : a.toNat = 512 + (256 + a.toNat % 256) := by omega
    rw [congrArg Nat.cast hquarter, sin_second_half, sin_second_quarter hi, Int.cast_neg, Int.cast_natCast, hneg]
    exact hnear (Nat.sub_le 256 _)

/-- The angle's floor: the phase's own angle is less than one step further. -/
theorem abs_phase_angle_sub_le {ch : Channel} (h : ch.phase.toNat < ch.period.toNat) :
    |2 * Real.pi * ch.phase.toNat / ch.period.toNat - Real.pi * (angle ch).toNat / 512| ≤ 2 * Real.pi / 1024 := by
  obtain ⟨hangle, -, -⟩ := angleQuantisesThePhase ch h
  have hp : (0 : ℝ) < ch.period.toNat := by exact_mod_cast (by omega : 0 < ch.period.toNat)
  have hlo : ((angle ch).toNat : ℝ) ≤ ch.phase.toNat * 1024 / ch.period.toNat := by
    rw [hangle]
    exact_mod_cast Nat.cast_div_le
  have hhi : (ch.phase.toNat * 1024 / ch.period.toNat : ℝ) ≤ (angle ch).toNat + 1 := by
    rw [hangle, div_le_iff₀ hp]
    exact_mod_cast (Nat.lt_mul_div_succ (ch.phase.toNat * 1024) (Nat.zero_lt_of_lt h)).le.trans_eq (Nat.mul_comm _ _)
  have hscale : 2 * Real.pi * ch.phase.toNat / ch.period.toNat - Real.pi * (angle ch).toNat / 512 =
      2 * Real.pi / 1024 * (ch.phase.toNat * 1024 / ch.period.toNat - (angle ch).toNat) := by
    field_simp
    ring
  rw [hscale, abs_mul, abs_of_pos (by positivity)]
  exact mul_le_of_le_one_right (by positivity) (abs_le.mpr ⟨by linarith, by linarith⟩)

theorem abs_sinq_sub_sin_lt {ch : Channel} (h : ch.phase.toNat < ch.period.toNat) :
    |(sinq (angle ch) : ℝ) / 32768 - Real.sin (2 * Real.pi * ch.phase.toNat / ch.period.toNat)| ≤
      2 * Real.pi / 1024 + 1 / 2 ^ 16 := by
  have htable := abs_le.mp (abs_sine_sub_sinq_lt (angle ch)).le
  have hangle := abs_le.mp ((Real.abs_sin_sub_sin_le _ _).trans (abs_phase_angle_sub_le h))
  rw [abs_le]
  constructor <;> linarith

/-- The shift's floor. -/
theorem abs_scaled_sub_lt (ch : Channel) : |(scaled ch : ℝ) - ch.amp.toNat * (sinq (angle ch) / 32768)| < 1 := by
  obtain ⟨hlo, hhi⟩ := scaled_floor ch
  have hlo : (scaled ch : ℝ) * 32768 ≤ ch.amp.toNat * sinq (angle ch) := by exact_mod_cast hlo
  have hhi : (ch.amp.toNat * sinq (angle ch) : ℝ) < (scaled ch + 1) * 32768 := by exact_mod_cast hhi
  rw [abs_lt]
  constructor <;> linarith

/-- Settles O48: the center is exact, so the three errors are all there is. -/
theorem rawApproximatesTheIdealSine : Obligations.RawApproximatesTheIdealSine := by
  intro ch hphase
  have hfloor := abs_scaled_sub_lt ch
  have hsine := abs_sinq_sub_sin_lt hphase
  set ideal := Real.sin (2 * Real.pi * ch.phase.toNat / ch.period.toNat)
  have hraw : (raw ch : ℝ) = ch.center.toInt + scaled ch := by rw [raw, s32, Int.cast_add]
  calc |(raw ch : ℝ) - (ch.center.toInt + ch.amp.toNat * ideal)|
      = |((scaled ch : ℝ) - ch.amp.toNat * (sinq (angle ch) / 32768)) + ch.amp.toNat * (sinq (angle ch) / 32768 - ideal)| := by
        rw [hraw]; congr 1; ring
    _ ≤ |(scaled ch : ℝ) - ch.amp.toNat * (sinq (angle ch) / 32768)| + ch.amp.toNat * |(sinq (angle ch) : ℝ) / 32768 - ideal| := by
        refine (abs_add_le _ _).trans_eq ?_
        rw [abs_mul, Nat.abs_cast]
    _ < 1 + ch.amp.toNat * (2 * Real.pi / 1024 + 1 / 2 ^ 16) :=
        add_lt_add_of_lt_of_le hfloor (mul_le_mul_of_nonneg_left hsine (Nat.cast_nonneg _))
    _ = ch.amp.toNat * (2 * Real.pi / 1024 + 1 / 2 ^ 16) + 1 := add_comm _ _

end Sys2Proof.Machine
